-- ==== Sys2Proof/Word.lean ====
section
/-! DEFINITION. Word and field widths of the FZ-4856 (00_scope.md R4), and the one shape of sparse data. -/

namespace Sys2Proof

/-- A byte. -/
abbrev Byte := BitVec 8
/-- A 32-bit register or instruction operand. -/
abbrev W32 := BitVec 32
/-- A 64-bit word: registers, uniform registers, structure words. -/
abbrev W64 := BitVec 64
/-- One bit for each of the 64 threads of a group, or for each byte of a line. -/
abbrev Mask := BitVec 64
/-- The 64 bytes of a line, byte 0 in the low bits (R4). -/
abbrev Line := BitVec 512
/-- Sparse data: values by key, keys strictly rising. -/
abbrev SMap (α : Type) := List (Nat × α)

end Sys2Proof
end

