-- ==== Sys2Proof/Syntax.lean ====
section
/-! DEFINITION. The commands of the block: one constructor of `Instr` for each row of spec/opcode_table.json.
A Jular row is one group or lead thread reaching that instruction, with the fields of its word (03 R56, R62); every
other row is one whole step of the device with what names the actor, and with the physical facts the device only
observes (a temperature, a failed check, a signature's verdict). -/

namespace Sys2Proof

/-- The actor of a Jular instruction on a core: a follow group by its index on the core (rank div n, R49), or the
lead thread of a ring (R47). -/
inductive Thr where
  | group (i : Fin 64)
  | lead (ring : Fin 16)
  deriving DecidableEq, Repr

/-- A Jular actor: device logical core 16t + c (R416), and which thread of it. -/
structure Who where
  core : Fin 768
  thr : Thr
  deriving DecidableEq, Repr

/-- Bits [57:54] of every instruction word (R56): predicate register and negation. -/
structure Pred where
  ps : BitVec 3
  pn : Bool
  deriving DecidableEq, Repr

/-- Vector format fields (R62), MAJOR and FUNC being the row. -/
structure VOp where
  pr : Pred
  vd : BitVec 8
  vs1 : BitVec 8
  vs2 : BitVec 8
  vs3 : BitVec 8
  s2k : BitVec 2
  ty : BitVec 3
  pd : BitVec 3
  aux : BitVec 7
  deriving DecidableEq, Repr

/-- VCVT fields (R62): formats and element selects in place of bits [19:0]. -/
structure CvtOp where
  pr : Pred
  vd : BitVec 8
  vs1 : BitVec 8
  sfmt : BitVec 4
  dfmt : BitVec 4
  ssel : BitVec 2
  dsel : BitVec 2
  deriving DecidableEq, Repr

/-- Uniform format fields (R62). -/
structure UOp where
  pr : Pred
  ud : BitVec 6
  us1 : BitVec 6
  us2 : BitVec 6
  imm : Bool
  pd : BitVec 3
  imm20 : BitVec 20
  deriving DecidableEq, Repr

/-- UMOVI fields (R62). -/
structure UmoviOp where
  pr : Pred
  ud : BitVec 6
  imm32 : W32
  deriving DecidableEq, Repr

/-- Matrix format fields (R62). -/
structure MOp where
  pr : Pred
  vd : BitVec 8
  va : BitVec 8
  amask : BitVec 4
  wb : Bool
  fmt : BitVec 4
  init : BitVec 2
  gth : Bool
  ua : BitVec 6
  dfmt : Bool
  stat : Bool
  deriving DecidableEq, Repr

/-- Memory format fields (R62). -/
structure MemOp where
  pr : Pred
  vr : BitVec 8
  ub : BitVec 6
  vx : BitVec 8
  am : BitVec 2
  scope : BitVec 3
  size : BitVec 3
  sem : BitVec 3
  off16 : BitVec 16
  fn : BitVec 5
  deriving DecidableEq, Repr

/-- Control format fields (R62). -/
structure COp where
  pr : Pred
  offb : BitVec 24
  offa : BitVec 24
  deriving DecidableEq, Repr

/-- Ring format fields (R62). -/
structure ROp where
  pr : Pred
  h : BitVec 4
  ud : BitVec 6
  pd : BitVec 3
  ua : BitVec 6
  ul : BitVec 6
  deriving DecidableEq, Repr

/-- System format fields (R62). -/
structure SOp where
  pr : Pred
  ua : BitVec 6
  imm32 : W32
  deriving DecidableEq, Repr

/-- What a residue check of a matrix array names (R116): a physical column or a row. -/
inductive ColRow where
  | column (c : Fin 33)
  | row (r : Fin 32)
  deriving DecidableEq, Repr

/-- What the line code finds when a stored line is read (R199, R202), or the code of a slice in a line that it keeps (R201). The cells of a
line that reads clean may fail after the read: one symbol of it (weakens), or more than the code corrects (decays), which the next read of
the stored line finds. -/
inductive Finding where
  | clean
  | correctable
  | uncorrectable
  | weakens
  | decays
  deriving DecidableEq, Repr

/-- The requester of a stream request: its number at the homes, the partition tag it carries, if any (R306), the context it works for
(R307), and the quadrant of its die (R170). -/
structure Requester where
  num : BitVec 12
  part : Option (Fin 48)
  ctx : Option (BitVec 12)
  quad : Fin 4
  deriving DecidableEq, Repr

/-- Where a DATA arrives (R185): at an agent that asked for a line, at the home a snooped agent owes it to, at a
stream requester, or at a Jular thread's remote read over Reel (R333). -/
inductive DataDst where
  | agent (a : Fin 14) (line : BitVec 46)
  | home (a : Fin 14) (line : BitVec 46)
  | requester (num : BitVec 12) (line : BitVec 46)
  | remoteRead (id : W32) (value : BitVec 128) (poison : Bool)
  deriving DecidableEq, Repr

/-- Who sends requests to a home: a caching agent or a stream requester. -/
inductive Sender where
  | agent (a : Fin 14)
  | requester (num : BitVec 12)
  deriving DecidableEq, Repr

/-- A sender whose request a home may turn away, and the partition tag it carries, if any (R180, R181, R306). -/
structure Asker where
  who : Sender
  part : Option (Fin 48)
  deriving DecidableEq, Repr

/-- Who answers RETRY (R180, R333): a home to the sender the command names, or another module to this module's request of that number,
which tells its sender too. -/
inductive TurnedBy where
  | home (h : Fin 13)
  | remote (id : W32)
  deriving DecidableEq, Repr

/-- A caching agent's local read (R173): the agent and, where that is the host complex, the hart that reads and whether it fetches
an instruction (R315). -/
structure LocalReader where
  agent : Fin 14
  hart : Fin 96
  fetch : Bool
  deriving DecidableEq, Repr

/-- A caching agent's local write (R173): the agent and, where that is the host complex, the hart that writes. -/
structure LocalWriter where
  agent : Fin 14
  hart : Fin 96
  deriving DecidableEq, Repr

/-- A flit as it arrives (R318, R350): its sequence number and whether its CRC holds. -/
structure Flit where
  seq : BitVec 10
  crcOk : Bool
  deriving DecidableEq, Repr

/-- An access of a CSR (R313): one that writes nothing, or the value it writes. -/
inductive CsrAccess where
  | read
  | write (v : W64)
  deriving DecidableEq, Repr

/-- Who makes a register or doorbell access (R312, R322): the companion with the tags its doorbell write carries,
a host hart, or Minuet. -/
inductive Source where
  | companion (tags : Option (Fin 48 × BitVec 12))
  | hart (h : Fin 96)
  | minuet
  deriving DecidableEq, Repr

/-- The privilege mode of a hart's CSR access (R313). -/
inductive PrivMode where
  | user
  | supervisor
  deriving DecidableEq, Repr

/-- An access made by another module through a window (R230). -/
inductive RemoteOp where
  | read (size : Nat)
  | write (bytes : List Byte)
  | atomic (aop : BitVec 4) (wide : Bool) (v : W64) (c : W64)
  deriving DecidableEq, Repr

/-- A collective segment from another module (R342): its window access (R230), its key, the sending rank, its phase, whether its
bytes are to be added (R343), the shard and the bytes, and the number it is acknowledged by. -/
structure SegMsg where
  src : BitVec 12
  window : BitVec 16
  off : W64
  key : W32
  group : BitVec 16
  epoch : W64
  rank : BitVec 12
  allgather : Bool
  add : Bool
  shard : BitVec 12
  bytes : List Byte
  id : W32
  deriving DecidableEq, Repr

/-- What a remote fence arrival carries (R338). -/
inductive FenceMsg where
  | absolute (v : W64)
  | relative (v : W64) (queue : BitVec 14) (slot : W32)
  | error (code : BitVec 16) (queue : BitVec 14) (slot : W32) (posted : Bool)
  deriving DecidableEq, Repr

/-- The direction of a Chasse edge (R352): AB runs from the die with the lower site ID. -/
inductive Dir where
  | ab
  | ba
  deriving DecidableEq, Repr

/-- Why a Chasse direction retrains (R351). -/
inductive RetrainCause where
  | replays
  | deskew
  | request
  deriving DecidableEq, Repr

/-- The unit a wear monitor names (R405, R406): kind, unit encoding, site, reason. -/
structure WearFinding where
  kind : BitVec 3
  unit : BitVec 20
  site : BitVec 7
  reason : BitVec 4
  deriving DecidableEq, Repr

/-- The shared dies and agents of a level 3 trigger (R368). -/
inductive SharedFault where
  | bridge (site : Fin 69)
  | hostComplex
  | deadAgents (agents : BitVec 14)
  deriving DecidableEq, Repr

/-- What bring-up meets (R397, R398, R404, R396): the verdicts on image, record and identity, whether bridges and host complex come up,
the tile sites that do not, whether REF is present, the identity's public key, and the milliseconds to walk-through. -/
structure BringUp where
  imageOk : Bool
  recordOk : Bool
  idOk : Bool
  diesOk : Bool
  failedSites : BitVec 56
  refPresent : Bool
  pubkey : BitVec 768
  walkMs : BitVec 16
  deriving DecidableEq, Repr

/-- The verdict on a staged image (R391, R392), and what its header says. -/
structure ImageVerdict where
  keyOk : Bool
  signatureOk : Bool
  kind : Byte
  version : W32
  securityVersion : W32
  handoffVersion : W32
  deriving DecidableEq, Repr

/-- The cause of a level 4 request (R368, R430). -/
inductive PowerCause where
  | noWalkThrough
  | noMinuet
  | refLost
  | supply
  deriving DecidableEq, Repr

/-- One command of the block. -/
inductive Instr where
  -- vector arithmetic and logic, major 0x01 (R66)
  | add (w : Who) (o : VOp)
  | sub (w : Who) (o : VOp)
  | mul (w : Who) (o : VOp)
  | fma (w : Who) (o : VOp)
  | min (w : Who) (o : VOp)
  | max (w : Who) (o : VOp)
  | abs (w : Who) (o : VOp)
  | neg (w : Who) (o : VOp)
  | and (w : Who) (o : VOp)
  | or (w : Who) (o : VOp)
  | xor (w : Who) (o : VOp)
  | not (w : Who) (o : VOp)
  | shl (w : Who) (o : VOp)
  | shr (w : Who) (o : VOp)
  | mulhi (w : Who) (o : VOp)
  | div (w : Who) (o : VOp)
  | rem (w : Who) (o : VOp)
  | sqrt (w : Who) (o : VOp)
  | rcp (w : Who) (o : VOp)
  | rsq (w : Who) (o : VOp)
  | exp2 (w : Who) (o : VOp)
  | log2 (w : Who) (o : VOp)
  | mov (w : Who) (o : VOp)
  | sel (w : Who) (o : VOp)
  | clz (w : Who) (o : VOp)
  | popc (w : Who) (o : VOp)
  -- compares and predicate logic, major 0x02 (R68)
  | eq (w : Who) (o : VOp)
  | ne (w : Who) (o : VOp)
  | lt (w : Who) (o : VOp)
  | le (w : Who) (o : VOp)
  | gt (w : Who) (o : VOp)
  | ge (w : Who) (o : VOp)
  | pand (w : Who) (o : VOp)
  | por (w : Who) (o : VOp)
  | pxor (w : Who) (o : VOp)
  | pnot (w : Who) (o : VOp)
  -- conversion, exchange, reductions, special (R69 to R73)
  | vcvt (w : Who) (o : CvtOp)
  | xchPick (w : Who) (o : VOp)
  | xchMirror (w : Who) (o : VOp)
  | xchRot (w : Who) (o : VOp)
  | xchSeghead (w : Who) (o : VOp)
  | redAdd (w : Who) (o : VOp)
  | redMin (w : Who) (o : VOp)
  | redMax (w : Who) (o : VOp)
  | tid (w : Who) (o : VOp)
  | rngDraw (w : Who) (o : VOp)
  | onlmax (w : Who) (o : VOp)
  | rescl (w : Who) (o : VOp)
  | wupdSr3 (w : Who) (o : VOp)
  | wupdSr4 (w : Who) (o : VOp)
  | wupdRn (w : Who) (o : VOp)
  -- uniform (R74, R75)
  | uniAdd (w : Who) (o : UOp)
  | uniSub (w : Who) (o : UOp)
  | uniMul (w : Who) (o : UOp)
  | uniMulhu (w : Who) (o : UOp)
  | uniAnd (w : Who) (o : UOp)
  | uniOr (w : Who) (o : UOp)
  | uniXor (w : Who) (o : UOp)
  | uniShl (w : Who) (o : UOp)
  | uniShr (w : Who) (o : UOp)
  | uniSar (w : Who) (o : UOp)
  | uniMin (w : Who) (o : UOp)
  | uniMax (w : Who) (o : UOp)
  | uniUmin (w : Who) (o : UOp)
  | uniUmax (w : Who) (o : UOp)
  | uniMov (w : Who) (o : UOp)
  | umoviLo (w : Who) (o : UmoviOp)
  | umoviHi (w : Who) (o : UmoviOp)
  | ucmpEq (w : Who) (o : UOp)
  | ucmpNe (w : Who) (o : UOp)
  | ucmpLt (w : Who) (o : UOp)
  | ucmpLe (w : Who) (o : UOp)
  | ucmpUlt (w : Who) (o : UOp)
  | ucmpUle (w : Who) (o : UOp)
  | ureadGidx (w : Who) (o : UOp)
  | ureadRank (w : Who) (o : UOp)
  | ureadTroupe (w : Who) (o : UOp)
  | ureadTsize (w : Who) (o : UOp)
  | ureadNcores (w : Who) (o : UOp)
  | ureadSeq (w : Who) (o : UOp)
  | qwidth (w : Who) (o : UOp)
  | qarrays (w : Who) (o : UOp)
  | ureadCycle (w : Who) (o : UOp)
  | ureadArg (w : Who) (o : UOp)
  -- matrix (R82 to R86, 04)
  | mma (w : Who) (o : MOp)
  | wload (w : Who) (o : MOp)
  | mdrain (w : Who) (o : MOp)
  | weightRowsWritten (core : Fin 768) (array : Fin 4)
  | mmaProductsInChain (core : Fin 768) (array : Fin 4)
  | drainComplete (core : Fin 768) (array : Fin 4) (bank : Bool)
  | arrayHandover (core : Fin 768) (array : Fin 4)
  -- memory (R76 to R81, 06)
  | ld (w : Who) (o : MemOp)
  | ldV (w : Who) (o : MemOp)
  | ldAcq (w : Who) (o : MemOp)
  | st (w : Who) (o : MemOp)
  | stRel (w : Who) (o : MemOp)
  | atomAdd (w : Who) (o : MemOp)
  | atomFadd (w : Who) (o : MemOp)
  | atomAnd (w : Who) (o : MemOp)
  | atomOr (w : Who) (o : MemOp)
  | atomXor (w : Who) (o : MemOp)
  | atomSmin (w : Who) (o : MemOp)
  | atomSmax (w : Who) (o : MemOp)
  | atomUmin (w : Who) (o : MemOp)
  | atomUmax (w : Who) (o : MemOp)
  | atomExch (w : Who) (o : MemOp)
  | atomCas (w : Who) (o : MemOp)
  | lds (w : Who) (o : MemOp)
  | sts (w : Who) (o : MemOp)
  | atoms (w : Who) (o : MemOp)
  | fenceAcq (w : Who) (o : MemOp)
  | fenceRel (w : Who) (o : MemOp)
  | fenceAr (w : Who) (o : MemOp)
  | zline (w : Who) (o : MemOp)
  | zlineS (w : Who) (o : MemOp)
  | invNearL (w : Who) (o : MemOp)
  | wbNearL (w : Who) (o : MemOp)
  | invNear (w : Who) (o : MemOp)
  | wbNear (w : Who) (o : MemOp)
  | pfNear (w : Who) (o : MemOp)
  | pfS (w : Who) (o : MemOp)
  -- control, rings, system (R87 to R90, R34, R42 to R49)
  | nop (w : Who) (o : COp)
  | braAny (w : Who) (o : COp)
  | braAll (w : Who) (o : COp)
  | split (w : Who) (o : COp)
  | join (w : Who) (o : COp)
  | call (w : Who) (o : COp)
  | ret (w : Who) (o : COp)
  | brx (w : Who) (o : COp)
  | exit (w : Who) (o : COp)
  | barUnit (w : Who) (o : COp)
  | barrierRelease (core : Fin 768) (barrier : Fin 16)
  | rfill (w : Who) (o : ROp)
  | ringFillComplete (core : Fin 768) (ring : Fin 16) (fill : Nat)
  | waitring (w : Who) (o : ROp)
  | waitringRel (w : Who) (o : ROp)
  | nsplit (w : Who) (o : SOp)
  | statfStatistics (w : Who) (o : SOp)
  | statfMonitor (w : Who) (o : SOp)
  | groupWake (core : Fin 768) (group : Fin 64)
  | issueSlotTake (core : Fin 768)
  | troupeStart (core : Fin 768)
  | laneResidueFail (core : Fin 768) (lane : Fin 17)
  | columnResidueFail (core : Fin 768) (array : Fin 4) (what : ColRow)
  -- coherence (07)
  | rdShared (a : Fin 14) (line : BitVec 46)
  | rdOwn (a : Fin 14) (line : BitVec 46)
  | claimOwn (a : Fin 14) (line : BitVec 46)
  | evict (a : Fin 14) (line : BitVec 46)
  | writeBack (a : Fin 14) (line : BitVec 46)
  | snpShared (a : Fin 14) (line : BitVec 46)
  | snpInv (a : Fin 14) (line : BitVec 46)
  | snpResp (a : Fin 14) (line : BitVec 46)
  | data (dst : DataDst)
  | dataRedirect (who : Sender) (line : BitVec 46)
  | strRd (rq : Requester) (line : BitVec 46) (found : Finding)
  | strWr (rq : Requester) (line : BitVec 46) (mask : Mask) (bytes : Line)
  | strAtom (rq : Requester) (line : BitVec 46) (off : BitVec 6) (aop : BitVec 4) (wide : Bool) (v : W64) (c : W64)
  | agentLocalRead (a : LocalReader) (line : BitVec 46)
  | agentLocalWrite (a : LocalWriter) (line : BitVec 46) (mask : Mask) (bytes : Line)
  | agentReplacement (a : Fin 14) (line : BitVec 46)
  | ownershipHoldExpiry (a : Fin 14) (line : BitVec 46)
  | retry (t : TurnedBy) (x : Asker)
  | nack (home : Fin 13) (x : Asker)
  | nackBackoffExpiry (home : Fin 13) (who : Sender)
  | reservationTimeout (home : Fin 13) (who : Sender)
  | homeTimeout (home : Fin 13) (line : BitVec 46)
  | agentDeadNotice (home : Fin 13) (a : Fin 14)
  | shcHomeCtlWrite (home : Fin 13) (v : W64)
  -- Tempo, memory upkeep (08, 12)
  | measureBoundary (n : Fin 13)
  | stackTemperatureRead (k : Fin 24) (temp : Byte)
  | patrolScrub (line : BitVec 46) (found : Finding)
  | remapCopy (k : Fin 24)
  | shadowCopy (q : Fin 16384) (slot : W32) (granule : BitVec 36)
  | carveOutScrub (n : Fin 13)
  | snoopFilterMaintenance (n : Fin 13) (suspect : Option (BitVec 46))
  | promenadeCalibration (site : Fin 69)
  -- translation and windows (09)
  | walkComplete (tile : Fin 49) (ctx : BitVec 12) (page : BitVec 45)
  | faultEntryFreed (p : Fin 48)
  | xltFqResolveRetry (p : Fin 48) (record : W32)
  | xltFqResolveFail (p : Fin 48) (record : W32)
  | xltFqConsWrite (p : Fin 48) (cons : W32)
  | xltWinInval (window : BitVec 16)
  | windowInvalDrained
  | remoteWindowAccess (src : BitVec 12) (window : BitVec 16) (off : W64) (key : W32) (op : RemoteOp) (id : W32)
  | remoteAccessAck (id : W32)
  -- commands of the queues (10, 11)
  | kernel (q : Fin 16384) (slot : W32)
  | copy (q : Fin 16384) (slot : W32)
  | fill (q : Fin 16384) (slot : W32)
  | collective (q : Fin 16384) (slot : W32)
  | wait (q : Fin 16384) (slot : W32)
  | signal (q : Fin 16384) (slot : W32)
  | rangeSync (q : Fin 16384) (slot : W32)
  | marker (q : Fin 16384) (slot : W32)
  | create (p : Fin 48) (q : BitVec 14)
  | destroy (p : Fin 48) (q : BitVec 14)
  | abort (p : Fin 48) (q : BitVec 14) (slot : W32)
  | clrDbTailWrite (src : Source) (q : Fin 16384) (tail : W32)
  | resume (src : Source) (q : Fin 16384)
  | slotRead (q : Fin 16384)
  | commandDispatch (q : Fin 16384) (slot : W32)
  | engineGrant (q : Fin 16384) (slot : W32)
  | preemptionKill (q : Fin 16384) (slot : W32)
  | sliceExpiry (q : Fin 16384) (slot : W32)
  | execTimeoutExpiry (q : Fin 16384) (slot : W32)
  | drainAckTimeout (q : Fin 16384) (slot : W32) (engine : Nat)
  | killAckTimeout (q : Fin 16384) (slot : W32) (engine : Nat)
  | engineAck (q : Fin 16384) (slot : W32) (engine : Nat)
  | waitTimeoutExpiry (q : Fin 16384) (slot : W32)
  | workFinished (q : Fin 16384) (slot : W32)
  | commitRequest (q : Fin 16384) (slot : W32)
  | killAtArbiter (q : Fin 16384) (slot : W32)
  | fenceSignal (p : Fin 48)
  | fenceErrorStore (p : Fin 48)
  | waitRelease (q : Fin 16384) (slot : W32)
  | fenceReread (q : Fin 16384) (slot : W32)
  | clrFencePost (p : Fin 48) (ctx : BitVec 12) (code : BitVec 16)
  | clrQRangeWrite (p : Fin 48) (contexts : Bool) (v : W64)
  -- partitions (12, 16)
  | activatePartition (p : Fin 48)
  | dissolve (p : Fin 48)
  | reinitialise (p : Fin 48)
  | reinitOverrun (p : Fin 48)
  | hbmReplPairWrite (j : Fin 64) (v : W64)
  | hbmFwMapWrite (block : Fin 2) (v : W64)
  | snapshotGo (v : W64)
  | snapshotSample
  | attestGo (p : Fin 48)
  -- host complex, Ulitum, exchange window (13)
  | fzctxWrite (h : Fin 96) (mode : PrivMode) (x : CsrAccess)
  | hostForbiddenAccess (h : Fin 96) (addr : BitVec 52) (write : Bool) (aligned64 : Bool)
  | prtIntWrite (p : Fin 48) (fence : Bool) (v : W64)
  | ulkFlit (seq : BitVec 10) (ack : BitVec 10) (crcOk : Bool) (corrected : Nat)
  | ulkReplayLimit
  | ulkLockLoss
  | retrain (v : W64)
  | ulkAllowanceDeclaration (setsLog2 : BitVec 5) (ways : BitVec 6) (half : Bool) (upper : Bool)
  | configRead (addr : BitVec 52)
  | configWrite (addr : BitVec 52) (v : W64)
  | timeMark (markId : Byte) (compTime : W64)
  | xwConfigWrite (flags : Bool) (v : W64)
  -- Reel (14)
  | reelWavelengthLoss (port : Fin 16) (wl : Fin 10)
  | remoteFenceSignal (src : BitVec 12) (window : BitVec 16) (off : W64) (key : W32) (msg : FenceMsg) (id : W32)
  | remoteSignalRetry (id : W32)
  | collectiveSegment (bridge : Fin 12) (m : SegMsg)
  | orderedCombine (q : Fin 16384) (slot : W32)
  -- floor, clocks, resets, test (15)
  | chasseRetrain (e : Fin 120) (dir : Dir) (cause : RetrainCause)
  | chasseRetrainComplete (e : Fin 120) (failedAb : List (Fin 1584)) (failedBa : List (Fin 1584))
  | laserLoss (bank : Fin 4) (laser : Fin 10)
  | promenadeScheduleChange
  | pllLockLoss (site : Fin 69)
  | refLoss
  | refHoldoverExpiry
  | powerReset
  | moduleReset
  | isolateReset (site : Fin 56)
  | resetRelease (b : BringUp)
  | idcode
  | samplePreload (pins : BitVec 16)
  | extest
  | selectDie (site : Byte)
  | bypass
  | dieIdcode
  | standalone (enter : Bool)
  | loopback (v : W64)
  | loopbackRunDone (errors : W32)
  | bist (selector : BitVec 16) (passMap : BitVec 16)
  | hbm1500 (v : BitVec 2)
  | dieBypass
  | flrTestCtlWrite (v : W64)
  -- faults and recovery (16)
  | tileDieFault (site : Fin 56)
  | isolateTimeout (site : Fin 56)
  | hostCoreFault (h : Fin 96)
  | sharedDieFault (f : SharedFault)
  | deviceWarmReset (cause : BitVec 4) (site : BitVec 7) (agents : BitVec 14)
  | powerCycleRequest (cause : PowerCause)
  -- Minuet, power and heat (17, 20)
  | watchdogExpiry (c : Fin 6) (recent : Bool)
  | thermalLoopTick (temps : List (Fin 69 × Byte))
  | powerLoopTick (watts : BitVec 13)
  | thermalClamp (site : Fin 69) (temp : Byte)
  | loopsMissedClamp
  | pwrBrakeAssert
  | pwrBrakeDeassert
  | supplyExcursion (quarterVolts : Byte)
  | supplyOutOfRange (quarterVolts : Byte)
  | setBeats (slot : BitVec 14) (slots : BitVec 14) (arg : BitVec 28)
  | logSlots (slot : BitVec 14) (slots : BitVec 14) (arg : BitVec 28)
  | telemSlots (slot : BitVec 14) (slots : BitVec 14) (arg : BitVec 28)
  | telemetryTick
  | logFlushTick
  | stageImage (slot : BitVec 14) (slots : BitVec 14) (arg : BitVec 28)
  | imageVerified (v : ImageVerdict)
  | activate (slot : BitVec 14) (slots : BitVec 14) (arg : BitVec 28)
  | activationRestart
  | cutinApprove (slot : BitVec 14) (slots : BitVec 14) (arg : BitVec 28)
  | cutinDecline (slot : BitVec 14) (slots : BitVec 14) (arg : BitVec 28)
  | standingApproval (slot : BitVec 14) (slots : BitVec 14) (arg : BitVec 28)
  | providerNotice (slot : BitVec 14) (slots : BitVec 14) (arg : BitVec 28)
  | clearRemap (slot : BitVec 14) (slots : BitVec 14) (arg : BitVec 28)
  | warmReset (slot : BitVec 14) (slots : BitVec 14) (arg : BitVec 28)
  | mntNegDrvWrite (p : Fin 48) (v : W64)
  -- bring-up, cut-in, sideband (18, 20)
  | tileCutin (tile : Fin 48)
  | stackRetrain (k : Fin 24) (ok : Bool)
  | fullServiceEntry (fullMs : BitVec 16)
  | i3cPrivateRead
  | entdaa (addr : BitVec 7)
  | setdasa (addr : BitVec 7)
  | registerWrite (src : Source) (addr : BitVec 52) (v : W64)
  | chasseFlit (e : Fin 120) (dir : Dir) (x : Flit)
  | wearMonitor (f : WearFinding)
  | lpddrRefreshRateReport (ch : Fin 16) (rate : BitVec 2)
  | thermalClampRelease (site : Fin 69) (temp : Byte)
  | minuetCoreRestart (c : Fin 6)
  | supplyExcursionEnd (quarterVolts : Byte)
  | refReturn
  | reelPortTraining (port : Fin 16) (up : Bool)
  | windowAccessRefused (id : W32)
  deriving DecidableEq, Repr

end Sys2Proof
end

