-- ==== Sys2Proof/Machine/JulDecode.lean ====
section
/-! DEFINITION. The Jular instruction word (03 R56, R58, R62, R63, R66 to R90): which row a word is, its fields, and the word of an
instruction. The rows carry the fields themselves, so no command decodes a word; this file says what words they stand for. Bits that
a format marks RES0 are ignored in decoding and 0 in encoding. -/

namespace Sys2Proof.Machine

open Sys2Proof

/-! ### Fields of a word (R56, R62) -/

def wordPred (x : W64) : Pred := { ps := x.extractLsb' 54 3, pn := x.getLsbD 57 }

def wordV (x : W64) : VOp :=
  { pr := wordPred x, vd := x.extractLsb' 46 8, vs1 := x.extractLsb' 38 8, vs2 := x.extractLsb' 30 8, vs3 := x.extractLsb' 22 8,
    s2k := x.extractLsb' 20 2, ty := x.extractLsb' 17 3, pd := x.extractLsb' 7 3, aux := x.extractLsb' 0 7 }

def wordCvt (x : W64) : CvtOp :=
  { pr := wordPred x, vd := x.extractLsb' 46 8, vs1 := x.extractLsb' 38 8, sfmt := x.extractLsb' 16 4, dfmt := x.extractLsb' 12 4,
    ssel := x.extractLsb' 10 2, dsel := x.extractLsb' 8 2 }

def wordU (x : W64) : UOp :=
  { pr := wordPred x, ud := x.extractLsb' 48 6, us1 := x.extractLsb' 42 6, us2 := x.extractLsb' 36 6, imm := x.getLsbD 35,
    pd := x.extractLsb' 26 3, imm20 := x.extractLsb' 0 20 }

def wordUmovi (x : W64) : UmoviOp := { pr := wordPred x, ud := x.extractLsb' 48 6, imm32 := x.extractLsb' 0 32 }

def wordM (x : W64) : MOp :=
  { pr := wordPred x, vd := x.extractLsb' 46 8, va := x.extractLsb' 38 8, amask := x.extractLsb' 34 4, wb := x.getLsbD 33,
    fmt := x.extractLsb' 29 4, init := x.extractLsb' 27 2, gth := x.getLsbD 26, ua := x.extractLsb' 20 6, dfmt := x.getLsbD 19,
    stat := x.getLsbD 18 }

def wordMem (x : W64) : MemOp :=
  { pr := wordPred x, vr := x.extractLsb' 46 8, ub := x.extractLsb' 40 6, vx := x.extractLsb' 32 8, am := x.extractLsb' 30 2,
    scope := x.extractLsb' 27 3, size := x.extractLsb' 24 3, sem := x.extractLsb' 21 3, off16 := x.extractLsb' 5 16,
    fn := x.extractLsb' 0 5 }

def wordC (x : W64) : COp := { pr := wordPred x, offb := x.extractLsb' 24 24, offa := x.extractLsb' 0 24 }

def wordR (x : W64) : ROp :=
  { pr := wordPred x, h := x.extractLsb' 50 4, ud := x.extractLsb' 44 6, pd := x.extractLsb' 41 3, ua := x.extractLsb' 35 6,
    ul := x.extractLsb' 29 6 }

def wordS (x : W64) : SOp := { pr := wordPred x, ua := x.extractLsb' 42 6, imm32 := x.extractLsb' 0 32 }

def wordMajor (x : W64) : Nat := (x.extractLsb' 58 6).toNat
/-- FUNC of the vector and of the uniform format, FN of the control and system formats. -/
def wordFuncV (x : W64) : Nat := (x.extractLsb' 10 7).toNat
def wordFuncU (x : W64) : Nat := (x.extractLsb' 29 6).toNat
def wordFn (x : W64) : Nat := (x.extractLsb' 48 6).toNat

/-! ### Decoding (R63, R66 to R90); none is ILLEGAL_INSTRUCTION by MAJOR, function or the row's selecting field (R58) -/

/-- Major 0x01 (R66). -/
def decV1 (w : Who) (x : W64) : Nat → Option Instr
  | 0 => some (.add w (wordV x))
  | 1 => some (.sub w (wordV x))
  | 2 => some (.mul w (wordV x))
  | 3 => some (.fma w (wordV x))
  | 4 => some (.min w (wordV x))
  | 5 => some (.max w (wordV x))
  | 6 => some (.abs w (wordV x))
  | 7 => some (.neg w (wordV x))
  | 8 => some (.and w (wordV x))
  | 9 => some (.or w (wordV x))
  | 10 => some (.xor w (wordV x))
  | 11 => some (.not w (wordV x))
  | 12 => some (.shl w (wordV x))
  | 13 => some (.shr w (wordV x))
  | 14 => some (.mulhi w (wordV x))
  | 15 => some (.div w (wordV x))
  | 16 => some (.rem w (wordV x))
  | 17 => some (.sqrt w (wordV x))
  | 18 => some (.rcp w (wordV x))
  | 19 => some (.rsq w (wordV x))
  | 20 => some (.exp2 w (wordV x))
  | 21 => some (.log2 w (wordV x))
  | 22 => some (.mov w (wordV x))
  | 23 => some (.sel w (wordV x))
  | 24 => some (.clz w (wordV x))
  | 25 => some (.popc w (wordV x))
  | _ => none

/-- Major 0x02 (R68). -/
def decV2 (w : Who) (x : W64) : Nat → Option Instr
  | 0 => some (.eq w (wordV x))
  | 1 => some (.ne w (wordV x))
  | 2 => some (.lt w (wordV x))
  | 3 => some (.le w (wordV x))
  | 4 => some (.gt w (wordV x))
  | 5 => some (.ge w (wordV x))
  | 16 => some (.pand w (wordV x))
  | 17 => some (.por w (wordV x))
  | 18 => some (.pxor w (wordV x))
  | 19 => some (.pnot w (wordV x))
  | _ => none

/-- Major 0x04 (R70). -/
def decV4 (w : Who) (x : W64) : Nat → Option Instr
  | 0 => some (.xchPick w (wordV x))
  | 1 => some (.xchMirror w (wordV x))
  | 2 => some (.xchRot w (wordV x))
  | 3 => some (.xchSeghead w (wordV x))
  | 4 => some (.redAdd w (wordV x))
  | 5 => some (.redMin w (wordV x))
  | 6 => some (.redMax w (wordV x))
  | _ => none

/-- Major 0x05 (R71 to R73). -/
def decV5 (w : Who) (x : W64) : Nat → Option Instr
  | 0 => some (.tid w (wordV x))
  | 1 => some (.rngDraw w (wordV x))
  | 2 => some (.onlmax w (wordV x))
  | 3 => some (.rescl w (wordV x))
  | 4 => some (.wupdSr3 w (wordV x))
  | 5 => some (.wupdSr4 w (wordV x))
  | 6 => some (.wupdRn w (wordV x))
  | _ => none

/-- Major 0x10 (R74). -/
def decU (w : Who) (x : W64) : Nat → Option Instr
  | 0 => some (.uniAdd w (wordU x))
  | 1 => some (.uniSub w (wordU x))
  | 2 => some (.uniMul w (wordU x))
  | 3 => some (.uniMulhu w (wordU x))
  | 4 => some (.uniAnd w (wordU x))
  | 5 => some (.uniOr w (wordU x))
  | 6 => some (.uniXor w (wordU x))
  | 7 => some (.uniShl w (wordU x))
  | 8 => some (.uniShr w (wordU x))
  | 9 => some (.uniSar w (wordU x))
  | 10 => some (.uniMin w (wordU x))
  | 11 => some (.uniMax w (wordU x))
  | 12 => some (.uniUmin w (wordU x))
  | 13 => some (.uniUmax w (wordU x))
  | 14 => some (.uniMov w (wordU x))
  | _ => none

/-- Major 0x12 (R74). -/
def decUcmp (w : Who) (x : W64) : Nat → Option Instr
  | 0 => some (.ucmpEq w (wordU x))
  | 1 => some (.ucmpNe w (wordU x))
  | 2 => some (.ucmpLt w (wordU x))
  | 3 => some (.ucmpLe w (wordU x))
  | 4 => some (.ucmpUlt w (wordU x))
  | 5 => some (.ucmpUle w (wordU x))
  | _ => none

/-- Major 0x13 (R75). -/
def decUread (w : Who) (x : W64) : Nat → Option Instr
  | 0 => some (.ureadGidx w (wordU x))
  | 1 => some (.ureadRank w (wordU x))
  | 2 => some (.ureadTroupe w (wordU x))
  | 3 => some (.ureadTsize w (wordU x))
  | 4 => some (.ureadNcores w (wordU x))
  | 5 => some (.ureadSeq w (wordU x))
  | 6 => some (.qwidth w (wordU x))
  | 7 => some (.qarrays w (wordU x))
  | 8 => some (.ureadCycle w (wordU x))
  | 9 => some (.ureadArg w (wordU x))
  | _ => none

/-- Major 0x20, by SEM (R77). -/
def decLd (w : Who) (x : W64) : Nat → Option Instr
  | 0 => some (.ld w (wordMem x))
  | 1 => some (.ldV w (wordMem x))
  | 2 => some (.ldAcq w (wordMem x))
  | _ => none

/-- Major 0x21, by SEM (R77). -/
def decSt (w : Who) (x : W64) : Nat → Option Instr
  | 0 => some (.st w (wordMem x))
  | 3 => some (.stRel w (wordMem x))
  | _ => none

/-- Major 0x22, by AOP (R78). -/
def decAtom (w : Who) (x : W64) : Nat → Option Instr
  | 0 => some (.atomAdd w (wordMem x))
  | 1 => some (.atomFadd w (wordMem x))
  | 2 => some (.atomAnd w (wordMem x))
  | 3 => some (.atomOr w (wordMem x))
  | 4 => some (.atomXor w (wordMem x))
  | 5 => some (.atomSmin w (wordMem x))
  | 6 => some (.atomSmax w (wordMem x))
  | 7 => some (.atomUmin w (wordMem x))
  | 8 => some (.atomUmax w (wordMem x))
  | 9 => some (.atomExch w (wordMem x))
  | 10 => some (.atomCas w (wordMem x))
  | _ => none

/-- Major 0x25, by SEM (R77). -/
def decFence (w : Who) (x : W64) : Nat → Option Instr
  | 2 => some (.fenceAcq w (wordMem x))
  | 3 => some (.fenceRel w (wordMem x))
  | 4 => some (.fenceAr w (wordMem x))
  | _ => none

/-- Major 0x26, by COP (R80). -/
def decCache (w : Who) (x : W64) : Nat → Option Instr
  | 0 => some (.zline w (wordMem x))
  | 1 => some (.zlineS w (wordMem x))
  | 2 => some (.invNearL w (wordMem x))
  | 3 => some (.wbNearL w (wordMem x))
  | 4 => some (.invNear w (wordMem x))
  | 5 => some (.wbNear w (wordMem x))
  | 6 => some (.pfNear w (wordMem x))
  | 7 => some (.pfS w (wordMem x))
  | _ => none

/-- Major 0x30 (R87). -/
def decC (w : Who) (x : W64) : Nat → Option Instr
  | 0 => some (.nop w (wordC x))
  | 1 => some (.braAny w (wordC x))
  | 2 => some (.braAll w (wordC x))
  | 3 => some (.split w (wordC x))
  | 4 => some (.join w (wordC x))
  | 5 => some (.call w (wordC x))
  | 6 => some (.ret w (wordC x))
  | 7 => some (.brx w (wordC x))
  | 8 => some (.exit w (wordC x))
  | 9 => some (.barUnit w (wordC x))
  | _ => none

/-- Major 0x3C (R90). -/
def decS (w : Who) (x : W64) : Nat → Option Instr
  | 0 => some (.nsplit w (wordS x))
  | 1 => some (if x.getLsbD 0 then .statfMonitor w (wordS x) else .statfStatistics w (wordS x))
  | _ => none

/-- The row of a word, by its major opcode. -/
def decMajor (w : Who) (x : W64) : Nat → Option Instr
  | 0x01 => decV1 w x (wordFuncV x)
  | 0x02 => decV2 w x (wordFuncV x)
  | 0x03 => some (.vcvt w (wordCvt x))
  | 0x04 => decV4 w x (wordFuncV x)
  | 0x05 => decV5 w x (wordFuncV x)
  | 0x10 => decU w x (wordFuncU x)
  | 0x11 => some (if x.getLsbD 47 then .umoviHi w (wordUmovi x) else .umoviLo w (wordUmovi x))
  | 0x12 => decUcmp w x (wordFuncU x)
  | 0x13 => decUread w x (wordFuncU x)
  | 0x18 => some (.mma w (wordM x))
  | 0x19 => some (.wload w (wordM x))
  | 0x1A => some (.mdrain w (wordM x))
  | 0x20 => decLd w x (wordMem x).sem.toNat
  | 0x21 => decSt w x (wordMem x).sem.toNat
  | 0x22 => decAtom w x ((wordMem x).fn.toNat % 16)
  | 0x23 => some (if x.getLsbD 29 then .sts w (wordMem x) else .lds w (wordMem x))
  | 0x24 => some (.atoms w (wordMem x))
  | 0x25 => decFence w x (wordMem x).sem.toNat
  | 0x26 => decCache w x ((wordMem x).fn.toNat % 8)
  | 0x30 => decC w x (wordFn x)
  | 0x38 => some (.rfill w (wordR x))
  | 0x39 => some (if x.getLsbD 28 then .waitringRel w (wordR x) else .waitring w (wordR x))
  | 0x3C => decS w x (wordFn x)
  | _ => none

/-- The instruction of a word for an actor. -/
def decodeJular (w : Who) (x : W64) : Option Instr := decMajor w x (wordMajor x)

/-! ### Encoding -/

def bit (b : Bool) : BitVec 1 := BitVec.ofBool b

/-- MAJOR, PN, PS. -/
def headBits (major : BitVec 6) (p : Pred) : BitVec 10 := major ++ bit p.pn ++ p.ps

def codeV (major : BitVec 6) (func : BitVec 7) (o : VOp) : W64 :=
  headBits major o.pr ++ o.vd ++ o.vs1 ++ o.vs2 ++ o.vs3 ++ o.s2k ++ o.ty ++ func ++ o.pd ++ o.aux

def codeCvt (o : CvtOp) : W64 :=
  headBits 0x03 o.pr ++ o.vd ++ o.vs1 ++ (0 : BitVec 18) ++ o.sfmt ++ o.dfmt ++ o.ssel ++ o.dsel ++ (0 : BitVec 8)

def codeU (major : BitVec 6) (func : BitVec 6) (o : UOp) : W64 :=
  headBits major o.pr ++ o.ud ++ o.us1 ++ o.us2 ++ bit o.imm ++ func ++ o.pd ++ (0 : BitVec 6) ++ o.imm20

def codeUmovi (hi : Bool) (o : UmoviOp) : W64 := headBits 0x11 o.pr ++ o.ud ++ bit hi ++ (0 : BitVec 15) ++ o.imm32

def codeM (major : BitVec 6) (o : MOp) : W64 :=
  headBits major o.pr ++ o.vd ++ o.va ++ o.amask ++ bit o.wb ++ o.fmt ++ o.init ++ bit o.gth ++ o.ua ++ bit o.dfmt ++ bit o.stat
    ++ (0 : BitVec 18)

def codeMem (major : BitVec 6) (o : MemOp) : W64 :=
  headBits major o.pr ++ o.vr ++ o.ub ++ o.vx ++ o.am ++ o.scope ++ o.size ++ o.sem ++ o.off16 ++ o.fn

def codeC (fn : BitVec 6) (o : COp) : W64 := headBits 0x30 o.pr ++ fn ++ o.offb ++ o.offa

def codeR (major : BitVec 6) (rel : Bool) (o : ROp) : W64 :=
  headBits major o.pr ++ o.h ++ o.ud ++ o.pd ++ o.ua ++ o.ul ++ bit rel ++ (0 : BitVec 28)

def codeS (fn : BitVec 6) (o : SOp) : W64 := headBits 0x3C o.pr ++ fn ++ o.ua ++ (0 : BitVec 10) ++ o.imm32

/-- The word of a Jular instruction; none of a command that is no instruction. -/
def encodeJular : Instr → Option W64
  | .add _ o => some (codeV 0x01 0 o)
  | .sub _ o => some (codeV 0x01 1 o)
  | .mul _ o => some (codeV 0x01 2 o)
  | .fma _ o => some (codeV 0x01 3 o)
  | .min _ o => some (codeV 0x01 4 o)
  | .max _ o => some (codeV 0x01 5 o)
  | .abs _ o => some (codeV 0x01 6 o)
  | .neg _ o => some (codeV 0x01 7 o)
  | .and _ o => some (codeV 0x01 8 o)
  | .or _ o => some (codeV 0x01 9 o)
  | .xor _ o => some (codeV 0x01 10 o)
  | .not _ o => some (codeV 0x01 11 o)
  | .shl _ o => some (codeV 0x01 12 o)
  | .shr _ o => some (codeV 0x01 13 o)
  | .mulhi _ o => some (codeV 0x01 14 o)
  | .div _ o => some (codeV 0x01 15 o)
  | .rem _ o => some (codeV 0x01 16 o)
  | .sqrt _ o => some (codeV 0x01 17 o)
  | .rcp _ o => some (codeV 0x01 18 o)
  | .rsq _ o => some (codeV 0x01 19 o)
  | .exp2 _ o => some (codeV 0x01 20 o)
  | .log2 _ o => some (codeV 0x01 21 o)
  | .mov _ o => some (codeV 0x01 22 o)
  | .sel _ o => some (codeV 0x01 23 o)
  | .clz _ o => some (codeV 0x01 24 o)
  | .popc _ o => some (codeV 0x01 25 o)
  | .eq _ o => some (codeV 0x02 0 o)
  | .ne _ o => some (codeV 0x02 1 o)
  | .lt _ o => some (codeV 0x02 2 o)
  | .le _ o => some (codeV 0x02 3 o)
  | .gt _ o => some (codeV 0x02 4 o)
  | .ge _ o => some (codeV 0x02 5 o)
  | .pand _ o => some (codeV 0x02 16 o)
  | .por _ o => some (codeV 0x02 17 o)
  | .pxor _ o => some (codeV 0x02 18 o)
  | .pnot _ o => some (codeV 0x02 19 o)
  | .vcvt _ o => some (codeCvt o)
  | .xchPick _ o => some (codeV 0x04 0 o)
  | .xchMirror _ o => some (codeV 0x04 1 o)
  | .xchRot _ o => some (codeV 0x04 2 o)
  | .xchSeghead _ o => some (codeV 0x04 3 o)
  | .redAdd _ o => some (codeV 0x04 4 o)
  | .redMin _ o => some (codeV 0x04 5 o)
  | .redMax _ o => some (codeV 0x04 6 o)
  | .tid _ o => some (codeV 0x05 0 o)
  | .rngDraw _ o => some (codeV 0x05 1 o)
  | .onlmax _ o => some (codeV 0x05 2 o)
  | .rescl _ o => some (codeV 0x05 3 o)
  | .wupdSr3 _ o => some (codeV 0x05 4 o)
  | .wupdSr4 _ o => some (codeV 0x05 5 o)
  | .wupdRn _ o => some (codeV 0x05 6 o)
  | .uniAdd _ o => some (codeU 0x10 0 o)
  | .uniSub _ o => some (codeU 0x10 1 o)
  | .uniMul _ o => some (codeU 0x10 2 o)
  | .uniMulhu _ o => some (codeU 0x10 3 o)
  | .uniAnd _ o => some (codeU 0x10 4 o)
  | .uniOr _ o => some (codeU 0x10 5 o)
  | .uniXor _ o => some (codeU 0x10 6 o)
  | .uniShl _ o => some (codeU 0x10 7 o)
  | .uniShr _ o => some (codeU 0x10 8 o)
  | .uniSar _ o => some (codeU 0x10 9 o)
  | .uniMin _ o => some (codeU 0x10 10 o)
  | .uniMax _ o => some (codeU 0x10 11 o)
  | .uniUmin _ o => some (codeU 0x10 12 o)
  | .uniUmax _ o => some (codeU 0x10 13 o)
  | .uniMov _ o => some (codeU 0x10 14 o)
  | .umoviLo _ o => some (codeUmovi false o)
  | .umoviHi _ o => some (codeUmovi true o)
  | .ucmpEq _ o => some (codeU 0x12 0 o)
  | .ucmpNe _ o => some (codeU 0x12 1 o)
  | .ucmpLt _ o => some (codeU 0x12 2 o)
  | .ucmpLe _ o => some (codeU 0x12 3 o)
  | .ucmpUlt _ o => some (codeU 0x12 4 o)
  | .ucmpUle _ o => some (codeU 0x12 5 o)
  | .ureadGidx _ o => some (codeU 0x13 0 o)
  | .ureadRank _ o => some (codeU 0x13 1 o)
  | .ureadTroupe _ o => some (codeU 0x13 2 o)
  | .ureadTsize _ o => some (codeU 0x13 3 o)
  | .ureadNcores _ o => some (codeU 0x13 4 o)
  | .ureadSeq _ o => some (codeU 0x13 5 o)
  | .qwidth _ o => some (codeU 0x13 6 o)
  | .qarrays _ o => some (codeU 0x13 7 o)
  | .ureadCycle _ o => some (codeU 0x13 8 o)
  | .ureadArg _ o => some (codeU 0x13 9 o)
  | .mma _ o => some (codeM 24 o)
  | .wload _ o => some (codeM 25 o)
  | .mdrain _ o => some (codeM 26 o)
  | .ld _ o => some (codeMem 0x20 o)
  | .ldV _ o => some (codeMem 0x20 o)
  | .ldAcq _ o => some (codeMem 0x20 o)
  | .st _ o => some (codeMem 0x21 o)
  | .stRel _ o => some (codeMem 0x21 o)
  | .atomAdd _ o => some (codeMem 0x22 o)
  | .atomFadd _ o => some (codeMem 0x22 o)
  | .atomAnd _ o => some (codeMem 0x22 o)
  | .atomOr _ o => some (codeMem 0x22 o)
  | .atomXor _ o => some (codeMem 0x22 o)
  | .atomSmin _ o => some (codeMem 0x22 o)
  | .atomSmax _ o => some (codeMem 0x22 o)
  | .atomUmin _ o => some (codeMem 0x22 o)
  | .atomUmax _ o => some (codeMem 0x22 o)
  | .atomExch _ o => some (codeMem 0x22 o)
  | .atomCas _ o => some (codeMem 0x22 o)
  | .lds _ o => some (codeMem 0x23 o)
  | .sts _ o => some (codeMem 0x23 o)
  | .atoms _ o => some (codeMem 0x24 o)
  | .fenceAcq _ o => some (codeMem 0x25 o)
  | .fenceRel _ o => some (codeMem 0x25 o)
  | .fenceAr _ o => some (codeMem 0x25 o)
  | .zline _ o => some (codeMem 0x26 o)
  | .zlineS _ o => some (codeMem 0x26 o)
  | .invNearL _ o => some (codeMem 0x26 o)
  | .wbNearL _ o => some (codeMem 0x26 o)
  | .invNear _ o => some (codeMem 0x26 o)
  | .wbNear _ o => some (codeMem 0x26 o)
  | .pfNear _ o => some (codeMem 0x26 o)
  | .pfS _ o => some (codeMem 0x26 o)
  | .nop _ o => some (codeC 0 o)
  | .braAny _ o => some (codeC 1 o)
  | .braAll _ o => some (codeC 2 o)
  | .split _ o => some (codeC 3 o)
  | .join _ o => some (codeC 4 o)
  | .call _ o => some (codeC 5 o)
  | .ret _ o => some (codeC 6 o)
  | .brx _ o => some (codeC 7 o)
  | .exit _ o => some (codeC 8 o)
  | .barUnit _ o => some (codeC 9 o)
  | .rfill _ o => some (codeR 0x38 false o)
  | .waitring _ o => some (codeR 0x39 false o)
  | .waitringRel _ o => some (codeR 0x39 true o)
  | .nsplit _ o => some (codeS 0 o)
  | .statfStatistics _ o => some (codeS 1 o)
  | .statfMonitor _ o => some (codeS 1 o)
  | _ => none

end Sys2Proof.Machine
end

