-- ==== Sys2Proof/Machine/Sparse.lean ====
section
/-! DEFINITION. Sparse data: the operations of `SMap` (a value by key) and of `Mem` (a byte by address, 0 where nothing is
listed), with little-endian access of any width (00 R4). -/

namespace Sys2Proof.Machine

open Sys2Proof

/-- Byte storage: addresses strictly rising, no entry equal to 0, which an unlisted address reads as. -/
abbrev Mem := List Host.Cell

/-- The value at a key. -/
def smapGet? {α : Type} : SMap α → Nat → Option α
  | [], _ => none
  | (k, v) :: t, j => if k = j then some v else smapGet? t j

/-- The value at a key, or what an unlisted key reads as. -/
def smapGet {α : Type} (m : SMap α) (j : Nat) (dflt : α) : α := (smapGet? m j).getD dflt

/-- Writing at a key. -/
def smapPut {α : Type} : SMap α → Nat → α → SMap α
  | [], j, x => [(j, x)]
  | (k, v) :: t, j, x =>
    if j < k then (j, x) :: (k, v) :: t
    else if j = k then (j, x) :: t
    else (k, v) :: smapPut t j x

/-- Removing a key. -/
def smapDel {α : Type} : SMap α → Nat → SMap α
  | [], _ => []
  | (k, v) :: t, j => if k = j then smapDel t j else (k, v) :: smapDel t j

/-- Changing every value. -/
def smapMap {α : Type} (f : Nat → α → α) : SMap α → SMap α
  | [] => []
  | (k, v) :: t => (k, f k v) :: smapMap f t

/-- The byte at an address: an unlisted address reads 0. -/
def memGet : Mem → Nat → Byte
  | [], _ => 0
  | (k, b) :: t, a => if k = a then b else memGet t a

/-- Writing a byte; writing 0 removes the entry, so that equal memories are equal lists. -/
def memPut : Mem → Nat → Byte → Mem
  | [], a, b => if b = 0 then [] else [(a, b)]
  | (k, c) :: t, a, b =>
    if a < k then (if b = 0 then (k, c) :: t else (a, b) :: (k, c) :: t)
    else if a = k then (if b = 0 then t else (a, b) :: t)
    else (k, c) :: memPut t a b

/-- n bytes from an address, lowest first. -/
def memRead (m : Mem) : Nat → Nat → List Byte
  | _, 0 => []
  | a, n + 1 => memGet m a :: memRead m (a + 1) n

/-- Writing bytes from an address upward. -/
def memWrite : Mem → Nat → List Byte → Mem
  | m, _, [] => m
  | m, a, b :: bs => memWrite (memPut m a b) (a + 1) bs

/-- Dropping every entry from lo up to but not including hi: those bytes read 0. -/
def memClear (m : Mem) (lo hi : Nat) : Mem := m.filter (fun c => c.1 < lo || hi ≤ c.1)

/-- A little-endian number (R4). -/
def leNat : List Byte → Nat
  | [] => 0
  | b :: bs => b.toNat + 256 * leNat bs

/-- The n low bytes of a number, lowest first. -/
def leBytes : Nat → Nat → List Byte
  | 0, _ => []
  | n + 1, v => BitVec.ofNat 8 v :: leBytes n (v / 256)

/-- Memory's canonical form: strictly rising addresses, no listed zero. -/
def memWf : Mem → Bool
  | [] => true
  | [(_, b)] => b != 0
  | (k, b) :: (k', c) :: t => b != 0 && decide (k < k') && memWf ((k', c) :: t)

/-- Bits [lo + w - 1 : lo] of a number. -/
def natBitsAt (v lo w : Nat) : Nat := v / 2 ^ lo % 2 ^ w

/-- A number with bits [lo + w - 1 : lo] replaced. -/
def natSetBits (v lo w x : Nat) : Nat :=
  v - natBitsAt v lo w * 2 ^ lo + x % 2 ^ w * 2 ^ lo

/-- A signed reading of the low w bits of a number. -/
def sextNat (w v : Nat) : Int :=
  let x := v % 2 ^ w
  if x < 2 ^ (w - 1) then (x : Int) else (x : Int) - (2 ^ w : Nat)

/-- An integer modulo 2^w. -/
def wrapNat (w : Nat) (i : Int) : Nat := (i % ((2 ^ w : Nat) : Int)).toNat

/-- A count that stops at its largest value (R128, R134). -/
def satCount (w : Nat) (c : BitVec w) (n : Nat) : BitVec w :=
  if c.toNat + n ≥ 2 ^ w then BitVec.allOnes w else BitVec.ofNat w (c.toNat + n)

end Sys2Proof.Machine
end

