-- ==== Sys2Proof/Machine/Regs.lean ====
section
/-! DEFINITION. The register table: every register of the partition control pages and the device control space (19 R410,
R418, and the chapter that defines each), its address, fields, access types and reset values (00 R7, R8, R10, R11). A field
that resets to X or from the configuration record is 0 here; Machine/State.lean lists the recorded values.
The doorbell registers (10 R246) are views of the queues and stand in Machine/CallerOps.lean. -/

namespace Sys2Proof.Machine

open Sys2Proof

/-- The registers, one constructor for each register or family of registers. -/
inductive Reg where
  /-- PRT_TILES (R287) -/
  | prtTiles
  /-- PRT_HCORES0 (R289) -/
  | prtHcores0
  /-- PRT_HCORES1 (R289) -/
  | prtHcores1
  /-- PRT_SCHED (R298) -/
  | prtSched
  /-- PRT_HCORE_ENTRY (R311) -/
  | prtHcoreEntry
  /-- PRT_RESERVE_BASE (R295) -/
  | prtReserveBase
  /-- PRT_RESERVE_CTL (R295) -/
  | prtReserveCtl
  /-- PRT_RESERVE_STAT (R295) -/
  | prtReserveStat
  /-- PRT_SERVICE (R403) -/
  | prtService
  /-- PRT_HBM_ENV (R208) -/
  | prtHbmEnv
  /-- PRT_REINIT_STAT (R374) -/
  | prtReinitStat
  /-- PRT_INT_FAULT (R316) -/
  | prtIntFault
  /-- PRT_INT_FENCE (R316) -/
  | prtIntFence
  /-- PRT_TMARK0 (R329) -/
  | prtTmark0
  /-- PRT_TMARK1 (R329) -/
  | prtTmark1
  /-- PRT_GANGj (R288) -/
  | prtGang
  /-- PRT_HBM_UNITSk (R290) -/
  | prtHbmUnits
  /-- PRT_LPM_UNITSk (R290) -/
  | prtLpmUnits
  /-- PRT_NEAR_PF_MASKj (R162) -/
  | prtNearPfMask
  /-- PRT_ATTEST_NONCEi (R309) -/
  | prtAttestNonce
  /-- PRT_ATTEST_CTL (R309) -/
  | prtAttestCtl
  /-- PRT_ATTEST_STAT (R309) -/
  | prtAttestStat
  /-- PRT_ATTEST_REPORT (R309) -/
  | prtAttestReport
  /-- CLR_Q_RANGE (R237) -/
  | clrQRange
  /-- CLR_CTX_RANGE (R237) -/
  | clrCtxRange
  /-- CLR_QTAB (R238) -/
  | clrQtab
  /-- CLR_CTX_TAB (R238) -/
  | clrCtxTab
  /-- CLR_QCTL (R244) -/
  | clrQctl
  /-- CLR_QCTL_STAT (R244) -/
  | clrQctlStat
  /-- CLR_RT_RESERVE (R262) -/
  | clrRtReserve
  /-- CLR_COMMIT_SEQ (R279) -/
  | clrCommitSeq
  /-- CLR_FENCE_POST_VA (R278) -/
  | clrFencePostVa
  /-- CLR_FENCE_POST (R278) -/
  | clrFencePost
  /-- CLR_FENCE_POST_STAT (R278) -/
  | clrFencePostStat
  /-- XLT_FQ_BASE (R228) -/
  | xltFqBase
  /-- XLT_FQ_CTL (R228) -/
  | xltFqCtl
  /-- XLT_FQ_PROD (R228) -/
  | xltFqProd
  /-- XLT_FQ_CONS (R228) -/
  | xltFqCons
  /-- XLT_FQ_OVF (R228) -/
  | xltFqOvf
  /-- XLT_FQ_RESOLVE (R227) -/
  | xltFqResolve
  /-- MNT_NEG_DRV (R395) -/
  | mntNegDrv
  /-- MNT_NEG_STAT (R395) -/
  | mntNegStat
  /-- PRT_CTLp (R291) -/
  | prtCtl
  /-- PRT_STATp (R291) -/
  | prtStat
  /-- PRT_BWn_p (R305) -/
  | prtBw
  /-- TMP_BEATSn (R301) -/
  | tmpBeats
  /-- TMP_STATn (R304) -/
  | tmpStat
  /-- XLT_WIN_BASE (R229) -/
  | xltWinBase
  /-- XLT_WIN_INVAL (R231) -/
  | xltWinInval
  /-- XLT_WIN_STAT (R231) -/
  | xltWinStat
  /-- SHC_PF_CTLn (R163) -/
  | shcPfCtl
  /-- SHC_HOME_CTLn (R182) -/
  | shcHomeCtl
  /-- SHC_HOME_STATn (R185) -/
  | shcHomeStat
  /-- SHC_AGENT_DEAD (R184) -/
  | shcAgentDead
  /-- SHC_WAYSn_p (R210) -/
  | shcWays
  /-- HBM_FW_MAP0, HBM_FW_MAP1 (R196) -/
  | hbmFwMap
  /-- HBM_RAS_CTL (R202) -/
  | hbmRasCtl
  /-- HBM_STACK_STATn (R206) -/
  | hbmStackStat
  /-- HBM_REPL_PAIRj (R213) -/
  | hbmReplPair
  /-- LPM_RAS_STAT (R206) -/
  | lpmRasStat
  /-- MNT_RESET_CAUSE (R376) -/
  | mntResetCause
  /-- MNT_CORE_STAT (R382) -/
  | mntCoreStat
  /-- MNT_BOOT_STAT (R398) -/
  | mntBootStat
  /-- MNT_PWR_CTL (R384) -/
  | mntPwrCtl
  /-- MNT_PWR_STAT (R387) -/
  | mntPwrStat
  /-- MNT_MBOX_CMD (R388) -/
  | mntMboxCmd
  /-- MNT_MBOX_STAT (R388) -/
  | mntMboxStat
  /-- MNT_INT_BASE (R390) -/
  | mntIntBase
  /-- MNT_FW_STAT (R394) -/
  | mntFwStat
  /-- MNT_ID_STAT (R396) -/
  | mntIdStat
  /-- MNT_WDOG_CTLc (R382) -/
  | mntWdogCtl
  /-- MNT_ID_PUBKEYi (R396) -/
  | mntIdPubkey
  /-- MNT_NEG_MASKp (R395) -/
  | mntNegMask
  /-- FLR_TEST_CTL (R364) -/
  | flrTestCtl
  /-- FLR_LASER_STATq (R356) -/
  | flrLaserStat
  /-- FLR_SITE_STATn (R349) -/
  | flrSiteStat
  /-- FLR_CHS_STATe (R352) -/
  | flrChsStat
  /-- ULK_STAT (R321) -/
  | ulkStat
  /-- ULK_ERR (R318) -/
  | ulkErr
  /-- ULK_CTL (R320) -/
  | ulkCtl
  /-- ULK_XW_BASE (R324) -/
  | ulkXwBase
  /-- ULK_XW_FLAGS (R324) -/
  | ulkXwFlags
  /-- REL_MODULE_ID (R334) -/
  | relModuleId
  /-- REL_ROUTE_BASE (R334) -/
  | relRouteBase
  /-- REL_PORT_STATn (R332) -/
  | relPortStat
  /-- CUT_STAT (R406) -/
  | cutStat
  /-- CUT_WEAR_CTL (R406) -/
  | cutWearCtl
  /-- CUT_PROPn (R406) -/
  | cutProp
  /-- SHF_TEST_KEY (R142) -/
  | shfTestKey
  /-- SHF_TEST_IN (R142) -/
  | shfTestIn
  /-- SHF_TEST_CTL (R142) -/
  | shfTestCtl
  /-- SHF_TEST_OUT (R142) -/
  | shfTestOut
  /-- MTR_SNAP_CTL (R308) -/
  | mtrSnapCtl
  /-- MTR_SNAP_STAT (R308) -/
  | mtrSnapStat
  deriving DecidableEq, Repr

/-- Access types (R7). -/
inductive Acc where
  | ro | rw | w1c | wo | rwl
  deriving DecidableEq, Repr

/-- Where a register family lies: in every partition's page, or in the device control space; its offset, and the stride
and count of its instances (two indices for PRT_BWn_p and SHC_WAYSn_p). -/
structure RegInfo where
  part : Bool
  base : Nat
  stride : Nat
  count : Nat
  stride2 : Nat
  count2 : Nat
  deriving DecidableEq, Repr

/-- A field: lowest bit, width, access, reset value, and the reserved values a write of which leaves it unchanged (R10). -/
structure FieldInfo where
  lo : Nat
  w : Nat
  acc : Acc
  reset : Nat
  reserved : List (Nat × Nat)
  deriving DecidableEq, Repr

def regInfo : Reg → RegInfo
  | .prtTiles => ⟨true, 0x0, 0x0, 1, 0, 1⟩
  | .prtHcores0 => ⟨true, 0x8, 0x0, 1, 0, 1⟩
  | .prtHcores1 => ⟨true, 0x10, 0x0, 1, 0, 1⟩
  | .prtSched => ⟨true, 0x18, 0x0, 1, 0, 1⟩
  | .prtHcoreEntry => ⟨true, 0x20, 0x0, 1, 0, 1⟩
  | .prtReserveBase => ⟨true, 0x28, 0x0, 1, 0, 1⟩
  | .prtReserveCtl => ⟨true, 0x30, 0x0, 1, 0, 1⟩
  | .prtReserveStat => ⟨true, 0x38, 0x0, 1, 0, 1⟩
  | .prtService => ⟨true, 0x40, 0x0, 1, 0, 1⟩
  | .prtHbmEnv => ⟨true, 0x48, 0x0, 1, 0, 1⟩
  | .prtReinitStat => ⟨true, 0x50, 0x0, 1, 0, 1⟩
  | .prtIntFault => ⟨true, 0x58, 0x0, 1, 0, 1⟩
  | .prtIntFence => ⟨true, 0x60, 0x0, 1, 0, 1⟩
  | .prtTmark0 => ⟨true, 0x68, 0x0, 1, 0, 1⟩
  | .prtTmark1 => ⟨true, 0x70, 0x0, 1, 0, 1⟩
  | .prtGang => ⟨true, 0x80, 0x8, 16, 0, 1⟩
  | .prtHbmUnits => ⟨true, 0x100, 0x8, 24, 0, 1⟩
  | .prtLpmUnits => ⟨true, 0x200, 0x8, 32, 0, 1⟩
  | .prtNearPfMask => ⟨true, 0x300, 0x8, 12, 0, 1⟩
  | .prtAttestNonce => ⟨true, 0x400, 0x8, 4, 0, 1⟩
  | .prtAttestCtl => ⟨true, 0x420, 0x0, 1, 0, 1⟩
  | .prtAttestStat => ⟨true, 0x428, 0x0, 1, 0, 1⟩
  | .prtAttestReport => ⟨true, 0x600, 0x8, 64, 0, 1⟩
  | .clrQRange => ⟨true, 0x1000, 0x0, 1, 0, 1⟩
  | .clrCtxRange => ⟨true, 0x1008, 0x0, 1, 0, 1⟩
  | .clrQtab => ⟨true, 0x1010, 0x0, 1, 0, 1⟩
  | .clrCtxTab => ⟨true, 0x1018, 0x0, 1, 0, 1⟩
  | .clrQctl => ⟨true, 0x1020, 0x0, 1, 0, 1⟩
  | .clrQctlStat => ⟨true, 0x1028, 0x0, 1, 0, 1⟩
  | .clrRtReserve => ⟨true, 0x1030, 0x0, 1, 0, 1⟩
  | .clrCommitSeq => ⟨true, 0x1038, 0x0, 1, 0, 1⟩
  | .clrFencePostVa => ⟨true, 0x1040, 0x0, 1, 0, 1⟩
  | .clrFencePost => ⟨true, 0x1048, 0x0, 1, 0, 1⟩
  | .clrFencePostStat => ⟨true, 0x1050, 0x0, 1, 0, 1⟩
  | .xltFqBase => ⟨true, 0x2000, 0x0, 1, 0, 1⟩
  | .xltFqCtl => ⟨true, 0x2008, 0x0, 1, 0, 1⟩
  | .xltFqProd => ⟨true, 0x2010, 0x0, 1, 0, 1⟩
  | .xltFqCons => ⟨true, 0x2018, 0x0, 1, 0, 1⟩
  | .xltFqOvf => ⟨true, 0x2020, 0x0, 1, 0, 1⟩
  | .xltFqResolve => ⟨true, 0x2028, 0x0, 1, 0, 1⟩
  | .mntNegDrv => ⟨true, 0x3000, 0x0, 1, 0, 1⟩
  | .mntNegStat => ⟨true, 0x3008, 0x0, 1, 0, 1⟩
  | .prtCtl => ⟨false, 0x100000, 0x10, 48, 0, 1⟩
  | .prtStat => ⟨false, 0x100008, 0x10, 48, 0, 1⟩
  | .prtBw => ⟨false, 0x110000, 0x200, 13, 8, 49⟩
  | .tmpBeats => ⟨false, 0x200000, 0x10, 13, 0, 1⟩
  | .tmpStat => ⟨false, 0x200008, 0x10, 13, 0, 1⟩
  | .xltWinBase => ⟨false, 0x300000, 0x0, 1, 0, 1⟩
  | .xltWinInval => ⟨false, 0x300008, 0x0, 1, 0, 1⟩
  | .xltWinStat => ⟨false, 0x300010, 0x0, 1, 0, 1⟩
  | .shcPfCtl => ⟨false, 0x400000, 0x40, 13, 0, 1⟩
  | .shcHomeCtl => ⟨false, 0x400008, 0x40, 13, 0, 1⟩
  | .shcHomeStat => ⟨false, 0x400010, 0x40, 13, 0, 1⟩
  | .shcAgentDead => ⟨false, 0x401000, 0x0, 1, 0, 1⟩
  | .shcWays => ⟨false, 0x410000, 0x200, 13, 8, 49⟩
  | .hbmFwMap => ⟨false, 0x500000, 0x8, 2, 0, 1⟩
  | .hbmRasCtl => ⟨false, 0x500010, 0x0, 1, 0, 1⟩
  | .hbmStackStat => ⟨false, 0x500100, 0x8, 24, 0, 1⟩
  | .hbmReplPair => ⟨false, 0x500200, 0x8, 64, 0, 1⟩
  | .lpmRasStat => ⟨false, 0x600000, 0x0, 1, 0, 1⟩
  | .mntResetCause => ⟨false, 0x700000, 0x0, 1, 0, 1⟩
  | .mntCoreStat => ⟨false, 0x700008, 0x0, 1, 0, 1⟩
  | .mntBootStat => ⟨false, 0x700010, 0x0, 1, 0, 1⟩
  | .mntPwrCtl => ⟨false, 0x700018, 0x0, 1, 0, 1⟩
  | .mntPwrStat => ⟨false, 0x700020, 0x0, 1, 0, 1⟩
  | .mntMboxCmd => ⟨false, 0x700028, 0x0, 1, 0, 1⟩
  | .mntMboxStat => ⟨false, 0x700030, 0x0, 1, 0, 1⟩
  | .mntIntBase => ⟨false, 0x700038, 0x0, 1, 0, 1⟩
  | .mntFwStat => ⟨false, 0x700040, 0x0, 1, 0, 1⟩
  | .mntIdStat => ⟨false, 0x700048, 0x0, 1, 0, 1⟩
  | .mntWdogCtl => ⟨false, 0x700100, 0x8, 6, 0, 1⟩
  | .mntIdPubkey => ⟨false, 0x700200, 0x8, 12, 0, 1⟩
  | .mntNegMask => ⟨false, 0x700400, 0x8, 48, 0, 1⟩
  | .flrTestCtl => ⟨false, 0x800000, 0x0, 1, 0, 1⟩
  | .flrLaserStat => ⟨false, 0x800100, 0x8, 4, 0, 1⟩
  | .flrSiteStat => ⟨false, 0x800400, 0x8, 69, 0, 1⟩
  | .flrChsStat => ⟨false, 0x800800, 0x8, 120, 0, 1⟩
  | .ulkStat => ⟨false, 0x900000, 0x0, 1, 0, 1⟩
  | .ulkErr => ⟨false, 0x900008, 0x0, 1, 0, 1⟩
  | .ulkCtl => ⟨false, 0x900010, 0x0, 1, 0, 1⟩
  | .ulkXwBase => ⟨false, 0x900018, 0x0, 1, 0, 1⟩
  | .ulkXwFlags => ⟨false, 0x900020, 0x0, 1, 0, 1⟩
  | .relModuleId => ⟨false, 0xA00000, 0x0, 1, 0, 1⟩
  | .relRouteBase => ⟨false, 0xA00008, 0x0, 1, 0, 1⟩
  | .relPortStat => ⟨false, 0xA00100, 0x8, 16, 0, 1⟩
  | .cutStat => ⟨false, 0xB00000, 0x0, 1, 0, 1⟩
  | .cutWearCtl => ⟨false, 0xB00008, 0x0, 1, 0, 1⟩
  | .cutProp => ⟨false, 0xB00100, 0x8, 32, 0, 1⟩
  | .shfTestKey => ⟨false, 0xC00000, 0x0, 1, 0, 1⟩
  | .shfTestIn => ⟨false, 0xC00008, 0x0, 1, 0, 1⟩
  | .shfTestCtl => ⟨false, 0xC00010, 0x0, 1, 0, 1⟩
  | .shfTestOut => ⟨false, 0xC00018, 0x0, 1, 0, 1⟩
  | .mtrSnapCtl => ⟨false, 0xD00000, 0x0, 1, 0, 1⟩
  | .mtrSnapStat => ⟨false, 0xD00008, 0x0, 1, 0, 1⟩

def regFields : Reg → List FieldInfo
  | .prtTiles => [⟨0, 48, .rwl, 0x0, []⟩]
  | .prtHcores0 => [⟨0, 64, .rwl, 0x0, []⟩]
  | .prtHcores1 => [⟨0, 32, .rwl, 0x0, []⟩]
  | .prtSched => [⟨0, 4, .rwl, 0x8, []⟩, ⟨4, 16, .rwl, 0x0, []⟩, ⟨20, 1, .rwl, 0x1, []⟩]
  | .prtHcoreEntry => [⟨2, 50, .rwl, 0x0, []⟩]
  | .prtReserveBase => [⟨12, 40, .rwl, 0x0, []⟩]
  | .prtReserveCtl => [⟨0, 24, .rwl, 0x0, []⟩]
  | .prtReserveStat => [⟨0, 24, .ro, 0x0, []⟩, ⟨24, 24, .ro, 0x0, []⟩, ⟨48, 16, .ro, 0x0, []⟩]
  | .prtService => [⟨0, 1, .ro, 0x0, []⟩, ⟨8, 56, .ro, 0x0, []⟩]
  | .prtHbmEnv => [⟨0, 48, .ro, 0x0, []⟩, ⟨48, 1, .ro, 0x0, []⟩, ⟨49, 2, .ro, 0x0, []⟩]
  | .prtReinitStat => [⟨0, 16, .ro, 0x0, []⟩, ⟨16, 4, .ro, 0x0, []⟩, ⟨20, 20, .ro, 0x0, []⟩, ⟨40, 6, .ro, 0x3F, []⟩]
  | .prtIntFault => [⟨0, 1, .rw, 0x0, []⟩, ⟨1, 1, .rw, 0x0, []⟩, ⟨2, 7, .rw, 0x0, []⟩, ⟨9, 3, .rw, 0x0, [(6, 7)]⟩, ⟨12, 11, .rw, 0x0, [(0, 0)]⟩]
  | .prtIntFence => [⟨0, 1, .rw, 0x0, []⟩, ⟨1, 1, .rw, 0x0, []⟩, ⟨2, 7, .rw, 0x0, []⟩, ⟨9, 3, .rw, 0x0, [(6, 7)]⟩, ⟨12, 11, .rw, 0x0, [(0, 0)]⟩]
  | .prtTmark0 => [⟨0, 64, .ro, 0x0, []⟩]
  | .prtTmark1 => [⟨0, 56, .ro, 0x0, []⟩, ⟨56, 8, .ro, 0x0, []⟩]
  | .prtGang => [⟨0, 48, .rwl, 0x0, []⟩, ⟨48, 4, .rwl, 0x0, []⟩, ⟨52, 1, .rwl, 0x0, []⟩, ⟨63, 1, .rwl, 0x0, []⟩]
  | .prtHbmUnits => [⟨0, 64, .rwl, 0x0, []⟩]
  | .prtLpmUnits => [⟨0, 64, .rwl, 0x0, []⟩]
  | .prtNearPfMask => [⟨0, 64, .rw, 0xFFFFFFFFFFFFFFFF, []⟩]
  | .prtAttestNonce => [⟨0, 64, .rw, 0x0, []⟩]
  | .prtAttestCtl => [⟨0, 1, .wo, 0x0, []⟩]
  | .prtAttestStat => [⟨0, 1, .ro, 0x0, []⟩, ⟨1, 2, .ro, 0x0, []⟩]
  | .prtAttestReport => [⟨0, 64, .ro, 0x0, []⟩]
  | .clrQRange => [⟨0, 14, .rwl, 0x0, []⟩, ⟨14, 15, .rwl, 0x0, []⟩]
  | .clrCtxRange => [⟨0, 12, .rwl, 0x0, []⟩, ⟨12, 13, .rwl, 0x0, []⟩]
  | .clrQtab => [⟨12, 40, .rwl, 0x0, []⟩]
  | .clrCtxTab => [⟨12, 40, .rwl, 0x0, []⟩]
  | .clrQctl => [⟨0, 14, .wo, 0x0, []⟩, ⟨16, 2, .wo, 0x0, [(0, 0)]⟩, ⟨32, 32, .wo, 0x0, []⟩]
  | .clrQctlStat => [⟨0, 1, .ro, 0x0, []⟩, ⟨1, 3, .ro, 0x0, []⟩, ⟨32, 32, .ro, 0x0, []⟩]
  | .clrRtReserve => [⟨0, 48, .rwl, 0x0, []⟩]
  | .clrCommitSeq => [⟨0, 64, .ro, 0x0, []⟩]
  | .clrFencePostVa => [⟨6, 51, .rw, 0x0, []⟩]
  | .clrFencePost => [⟨0, 12, .wo, 0x0, []⟩, ⟨16, 16, .wo, 0x0, [(0, 260), (263, 65535)]⟩]
  | .clrFencePostStat => [⟨0, 1, .ro, 0x0, []⟩, ⟨1, 2, .ro, 0x0, []⟩]
  | .xltFqBase => [⟨12, 40, .rwl, 0x0, []⟩]
  | .xltFqCtl => [⟨0, 4, .rwl, 0xA, [(0, 7), (15, 15)]⟩, ⟨4, 1, .rw, 0x1, []⟩]
  | .xltFqProd => [⟨0, 32, .ro, 0x0, []⟩]
  | .xltFqCons => [⟨0, 32, .rw, 0x0, []⟩]
  | .xltFqOvf => [⟨0, 32, .ro, 0x0, []⟩, ⟨32, 16, .ro, 0x0, []⟩]
  | .xltFqResolve => [⟨0, 32, .wo, 0x0, []⟩, ⟨32, 2, .wo, 0x0, [(0, 0), (3, 3)]⟩]
  | .mntNegDrv => [⟨0, 8, .rw, 0x0, []⟩, ⟨8, 8, .rw, 0x0, []⟩, ⟨16, 16, .rw, 0x0, []⟩, ⟨32, 16, .rw, 0x0, []⟩]
  | .mntNegStat => [⟨0, 8, .ro, 0x0, []⟩, ⟨8, 8, .ro, 0x1, []⟩, ⟨16, 16, .ro, 0x0, []⟩, ⟨32, 2, .ro, 0x0, []⟩]
  | .prtCtl => [⟨0, 2, .wo, 0x0, [(0, 0)]⟩]
  | .prtStat => [⟨0, 2, .ro, 0x0, []⟩, ⟨2, 1, .ro, 0x0, []⟩, ⟨3, 3, .ro, 0x0, []⟩, ⟨16, 12, .ro, 0x0, []⟩]
  | .prtBw => [⟨0, 20, .rwl, 0x0, []⟩]
  | .tmpBeats => [⟨0, 6, .ro, 0x2, []⟩, ⟨6, 6, .ro, 0x2, []⟩, ⟨12, 6, .ro, 0x8, []⟩, ⟨18, 6, .ro, 0x4, []⟩, ⟨24, 6, .ro, 0x2, []⟩, ⟨30, 6, .ro, 0x1, []⟩, ⟨36, 6, .ro, 0x2, []⟩, ⟨42, 6, .ro, 0x4, []⟩, ⟨48, 6, .ro, 0x1, []⟩, ⟨63, 1, .ro, 0x0, []⟩]
  | .tmpStat => [⟨0, 20, .ro, 0x0, []⟩, ⟨20, 2, .ro, 0x0, []⟩, ⟨22, 26, .ro, 0x0, []⟩]
  | .xltWinBase => [⟨12, 40, .rw, 0x0, []⟩, ⟨63, 1, .rw, 0x0, []⟩]
  | .xltWinInval => [⟨0, 16, .wo, 0x0, []⟩]
  | .xltWinStat => [⟨0, 1, .ro, 0x0, []⟩, ⟨32, 32, .ro, 0x0, []⟩]
  | .shcPfCtl => [⟨0, 1, .rw, 0x1, []⟩]
  | .shcHomeCtl => [⟨0, 1, .rw, 0x1, []⟩, ⟨8, 10, .rw, 0x14, [(0, 0), (301, 1023)]⟩]
  | .shcHomeStat => [⟨0, 9, .ro, 0x0, []⟩, ⟨16, 16, .ro, 0x0, []⟩, ⟨32, 16, .ro, 0x0, []⟩]
  | .shcAgentDead => [⟨0, 14, .ro, 0x0, []⟩]
  | .shcWays => [⟨0, 20, .rwl, 0x0, []⟩]
  | .hbmFwMap => [⟨0, 64, .rw, 0x0, []⟩]
  | .hbmRasCtl => [⟨0, 8, .rw, 0x10, [(0, 0)]⟩, ⟨8, 8, .rw, 0x18, [(0, 0), (169, 255)]⟩, ⟨16, 1, .rw, 0x1, []⟩]
  | .hbmStackStat => [⟨0, 8, .ro, 0x0, []⟩, ⟨8, 2, .ro, 0x0, []⟩, ⟨10, 1, .ro, 0x0, []⟩, ⟨11, 1, .ro, 0x0, []⟩, ⟨12, 13, .ro, 0x0, []⟩, ⟨25, 13, .ro, 0x0, []⟩, ⟨38, 16, .ro, 0x0, []⟩]
  | .hbmReplPair => [⟨0, 11, .rw, 0x0, []⟩, ⟨16, 11, .rw, 0x0, []⟩, ⟨63, 1, .rw, 0x0, []⟩]
  | .lpmRasStat => [⟨0, 32, .ro, 0x0, []⟩, ⟨32, 16, .ro, 0x0, []⟩]
  | .mntResetCause => [⟨0, 2, .ro, 0x0, []⟩, ⟨2, 4, .ro, 0x0, []⟩, ⟨6, 7, .ro, 0x7F, []⟩, ⟨14, 14, .ro, 0x0, []⟩, ⟨28, 16, .ro, 0x0, []⟩]
  | .mntCoreStat => [⟨0, 12, .ro, 0x55, []⟩, ⟨12, 16, .ro, 0x0, []⟩]
  | .mntBootStat => [⟨0, 4, .ro, 0x0, []⟩, ⟨4, 24, .ro, 0x0, []⟩, ⟨28, 1, .ro, 0x0, []⟩, ⟨29, 16, .ro, 0x0, []⟩, ⟨45, 16, .ro, 0x0, []⟩]
  | .mntPwrCtl => [⟨0, 13, .rw, 0x1450, [(0, 3199), (5201, 8191)]⟩, ⟨13, 8, .rw, 0x64, [(0, 89), (103, 255)]⟩]
  | .mntPwrStat => [⟨0, 13, .ro, 0x0, []⟩, ⟨13, 1, .ro, 0x0, []⟩, ⟨14, 1, .ro, 0x0, []⟩, ⟨15, 1, .ro, 0x0, []⟩, ⟨16, 1, .ro, 0x0, []⟩, ⟨17, 8, .ro, 0x0, []⟩, ⟨25, 16, .ro, 0x0, []⟩, ⟨41, 1, .ro, 0x0, []⟩]
  | .mntMboxCmd => [⟨0, 8, .wo, 0x0, []⟩, ⟨8, 14, .wo, 0x0, []⟩, ⟨22, 14, .wo, 0x0, []⟩, ⟨36, 28, .wo, 0x0, []⟩]
  | .mntMboxStat => [⟨0, 1, .ro, 0x0, []⟩, ⟨1, 2, .ro, 0x0, []⟩, ⟨32, 32, .ro, 0x0, []⟩]
  | .mntIntBase => [⟨0, 32, .rw, 0x0, []⟩]
  | .mntFwStat => [⟨0, 4, .ro, 0x0, []⟩, ⟨4, 4, .ro, 0x0, []⟩, ⟨8, 32, .ro, 0x0, []⟩, ⟨40, 24, .ro, 0x0, []⟩]
  | .mntIdStat => [⟨0, 1, .ro, 0x0, []⟩]
  | .mntWdogCtl => [⟨0, 7, .ro, 0xA, [(0, 0), (101, 127)]⟩]
  | .mntIdPubkey => [⟨0, 64, .ro, 0x0, []⟩]
  | .mntNegMask => [⟨0, 16, .rw, 0x7, []⟩]
  | .flrTestCtl => [⟨0, 1, .rw, 0x0, []⟩, ⟨1, 1, .rw, 0x0, []⟩, ⟨2, 8, .ro, 0xFF, []⟩]
  | .flrLaserStat => [⟨0, 10, .ro, 0x0, []⟩, ⟨10, 10, .ro, 0x0, []⟩, ⟨20, 2, .ro, 0x0, []⟩, ⟨22, 10, .ro, 0x0, []⟩]
  | .flrSiteStat => [⟨0, 2, .ro, 0x0, []⟩, ⟨2, 3, .ro, 0x0, []⟩, ⟨5, 6, .ro, 0x0, []⟩, ⟨11, 5, .ro, 0x0, []⟩, ⟨16, 1, .ro, 0x0, []⟩, ⟨17, 8, .ro, 0x0, []⟩, ⟨25, 1, .ro, 0x0, []⟩, ⟨26, 5, .ro, 0x0, []⟩]
  | .flrChsStat => [⟨0, 2, .ro, 0x0, []⟩, ⟨2, 6, .ro, 0x0, []⟩, ⟨8, 6, .ro, 0x0, []⟩, ⟨14, 6, .ro, 0x0, []⟩, ⟨20, 6, .ro, 0x0, []⟩, ⟨26, 16, .ro, 0x0, []⟩, ⟨42, 16, .ro, 0x0, []⟩, ⟨58, 1, .ro, 0x0, []⟩]
  | .ulkStat => [⟨0, 2, .ro, 0x0, []⟩, ⟨2, 1, .ro, 0x0, []⟩, ⟨3, 1, .ro, 0x0, []⟩, ⟨4, 5, .ro, 0x0, []⟩, ⟨9, 6, .ro, 0x0, []⟩, ⟨15, 1, .ro, 0x0, []⟩, ⟨16, 16, .ro, 0x0, []⟩]
  | .ulkErr => [⟨0, 32, .ro, 0x0, []⟩, ⟨32, 16, .ro, 0x0, []⟩, ⟨48, 16, .ro, 0x0, []⟩]
  | .ulkCtl => [⟨0, 1, .wo, 0x0, []⟩]
  | .ulkXwBase => [⟨26, 26, .rw, 0x0, []⟩, ⟨63, 1, .rw, 0x0, []⟩]
  | .ulkXwFlags => [⟨17, 35, .rw, 0x0, []⟩]
  | .relModuleId => [⟨0, 12, .rw, 0x0, [(4095, 4095)]⟩]
  | .relRouteBase => [⟨12, 40, .rw, 0x0, []⟩]
  | .relPortStat => [⟨0, 2, .ro, 0x0, []⟩, ⟨2, 4, .ro, 0x0, []⟩, ⟨6, 2, .ro, 0x0, []⟩, ⟨8, 10, .ro, 0x0, []⟩, ⟨18, 16, .ro, 0x0, []⟩, ⟨34, 16, .ro, 0x0, []⟩]
  | .cutStat => [⟨0, 5, .ro, 0x0, []⟩, ⟨5, 8, .ro, 0x0, []⟩, ⟨13, 4, .ro, 0x0, []⟩, ⟨17, 6, .ro, 0x0, []⟩, ⟨32, 32, .ro, 0x0, []⟩]
  | .cutWearCtl => [⟨0, 4, .rw, 0x8, [(0, 2)]⟩, ⟨4, 16, .rw, 0x100, [(0, 0)]⟩]
  | .cutProp => [⟨0, 1, .ro, 0x0, []⟩, ⟨1, 2, .ro, 0x0, []⟩, ⟨3, 3, .ro, 0x0, []⟩, ⟨6, 16, .ro, 0x0, []⟩, ⟨22, 7, .ro, 0x7F, []⟩, ⟨29, 20, .ro, 0x0, []⟩, ⟨49, 6, .ro, 0x3F, []⟩, ⟨55, 4, .ro, 0x0, []⟩]
  | .shfTestKey => [⟨0, 64, .rw, 0x0, []⟩]
  | .shfTestIn => [⟨0, 58, .rw, 0x0, []⟩, ⟨58, 6, .rw, 0x0, []⟩]
  | .shfTestCtl => [⟨0, 1, .rw, 0x0, []⟩]
  | .shfTestOut => [⟨0, 64, .ro, 0x0, []⟩]
  | .mtrSnapCtl => [⟨0, 14, .rw, 0x0, []⟩, ⟨14, 12, .rw, 0x0, []⟩, ⟨26, 13, .rw, 0x0, [(0, 0), (4097, 8191)]⟩, ⟨63, 1, .wo, 0x0, []⟩]
  | .mtrSnapStat => [⟨0, 1, .ro, 0x0, []⟩, ⟨1, 2, .ro, 0x0, []⟩, ⟨32, 32, .ro, 0x0, []⟩]

/-- Every register family. -/
def allRegs : List Reg :=
  [.prtTiles, .prtHcores0, .prtHcores1, .prtSched, .prtHcoreEntry, .prtReserveBase, .prtReserveCtl, .prtReserveStat,
   .prtService, .prtHbmEnv, .prtReinitStat, .prtIntFault, .prtIntFence, .prtTmark0, .prtTmark1, .prtGang,
   .prtHbmUnits, .prtLpmUnits, .prtNearPfMask, .prtAttestNonce, .prtAttestCtl, .prtAttestStat, .prtAttestReport, .clrQRange,
   .clrCtxRange, .clrQtab, .clrCtxTab, .clrQctl, .clrQctlStat, .clrRtReserve, .clrCommitSeq, .clrFencePostVa,
   .clrFencePost, .clrFencePostStat, .xltFqBase, .xltFqCtl, .xltFqProd, .xltFqCons, .xltFqOvf, .xltFqResolve,
   .mntNegDrv, .mntNegStat, .prtCtl, .prtStat, .prtBw, .tmpBeats, .tmpStat, .xltWinBase,
   .xltWinInval, .xltWinStat, .shcPfCtl, .shcHomeCtl, .shcHomeStat, .shcAgentDead, .shcWays, .hbmFwMap,
   .hbmRasCtl, .hbmStackStat, .hbmReplPair, .lpmRasStat, .mntResetCause, .mntCoreStat, .mntBootStat, .mntPwrCtl,
   .mntPwrStat, .mntMboxCmd, .mntMboxStat, .mntIntBase, .mntFwStat, .mntIdStat, .mntWdogCtl, .mntIdPubkey,
   .mntNegMask, .flrTestCtl, .flrLaserStat, .flrSiteStat, .flrChsStat, .ulkStat, .ulkErr, .ulkCtl,
   .ulkXwBase, .ulkXwFlags, .relModuleId, .relRouteBase, .relPortStat, .cutStat, .cutWearCtl, .cutProp,
   .shfTestKey, .shfTestIn, .shfTestCtl, .shfTestOut, .mtrSnapCtl, .mtrSnapStat]

/-- A field by its register, lowest bit and width. -/
structure Fld where
  reg : Reg
  lo : Nat
  w : Nat
  deriving DecidableEq, Repr

def fPrtTilesTiles : Fld := ⟨.prtTiles, 0, 48⟩
def fPrtHcores0Cores : Fld := ⟨.prtHcores0, 0, 64⟩
def fPrtHcores1Cores : Fld := ⟨.prtHcores1, 0, 32⟩
def fPrtSchedKillLimit : Fld := ⟨.prtSched, 0, 4⟩
def fPrtSchedSlice : Fld := ⟨.prtSched, 4, 16⟩
def fPrtSchedLcPreempt : Fld := ⟨.prtSched, 20, 1⟩
def fPrtHcoreEntryEntry : Fld := ⟨.prtHcoreEntry, 2, 50⟩
def fPrtReserveBaseBase : Fld := ⟨.prtReserveBase, 12, 40⟩
def fPrtReserveCtlCount : Fld := ⟨.prtReserveCtl, 0, 24⟩
def fPrtReserveStatFree : Fld := ⟨.prtReserveStat, 0, 24⟩
def fPrtReserveStatLowWater : Fld := ⟨.prtReserveStat, 24, 24⟩
def fPrtReserveStatExhausted : Fld := ⟨.prtReserveStat, 48, 16⟩
def fPrtServiceLevel : Fld := ⟨.prtService, 0, 1⟩
def fPrtServicePromotedAt : Fld := ⟨.prtService, 8, 56⟩
def fPrtHbmEnvBand : Fld := ⟨.prtHbmEnv, 0, 48⟩
def fPrtHbmEnvThrottled : Fld := ⟨.prtHbmEnv, 48, 1⟩
def fPrtHbmEnvLpmBand : Fld := ⟨.prtHbmEnv, 49, 2⟩
def fPrtReinitStatCount : Fld := ⟨.prtReinitStat, 0, 16⟩
def fPrtReinitStatCause : Fld := ⟨.prtReinitStat, 16, 4⟩
def fPrtReinitStatDuration : Fld := ⟨.prtReinitStat, 20, 20⟩
def fPrtReinitStatSite : Fld := ⟨.prtReinitStat, 40, 6⟩
def fPrtIntFaultEnable : Fld := ⟨.prtIntFault, 0, 1⟩
def fPrtIntFaultTarget : Fld := ⟨.prtIntFault, 1, 1⟩
def fPrtIntFaultHart : Fld := ⟨.prtIntFault, 2, 7⟩
def fPrtIntFaultFile : Fld := ⟨.prtIntFault, 9, 3⟩
def fPrtIntFaultEiid : Fld := ⟨.prtIntFault, 12, 11⟩
def fPrtIntFenceEnable : Fld := ⟨.prtIntFence, 0, 1⟩
def fPrtIntFenceTarget : Fld := ⟨.prtIntFence, 1, 1⟩
def fPrtIntFenceHart : Fld := ⟨.prtIntFence, 2, 7⟩
def fPrtIntFenceFile : Fld := ⟨.prtIntFence, 9, 3⟩
def fPrtIntFenceEiid : Fld := ⟨.prtIntFence, 12, 11⟩
def fPrtTmark0CompTime : Fld := ⟨.prtTmark0, 0, 64⟩
def fPrtTmark1PartCount : Fld := ⟨.prtTmark1, 0, 56⟩
def fPrtTmark1MarkId : Fld := ⟨.prtTmark1, 56, 8⟩
def fPrtGangTiles : Fld := ⟨.prtGang, 0, 48⟩
def fPrtGangParent : Fld := ⟨.prtGang, 48, 4⟩
def fPrtGangRootParent : Fld := ⟨.prtGang, 52, 1⟩
def fPrtGangValid : Fld := ⟨.prtGang, 63, 1⟩
def fPrtHbmUnitsUnits : Fld := ⟨.prtHbmUnits, 0, 64⟩
def fPrtLpmUnitsUnits : Fld := ⟨.prtLpmUnits, 0, 64⟩
def fPrtNearPfMaskEnable : Fld := ⟨.prtNearPfMask, 0, 64⟩
def fPrtAttestNonceNonce : Fld := ⟨.prtAttestNonce, 0, 64⟩
def fPrtAttestCtlGo : Fld := ⟨.prtAttestCtl, 0, 1⟩
def fPrtAttestStatBusy : Fld := ⟨.prtAttestStat, 0, 1⟩
def fPrtAttestStatResult : Fld := ⟨.prtAttestStat, 1, 2⟩
def fPrtAttestReportWord : Fld := ⟨.prtAttestReport, 0, 64⟩
def fClrQRangeFirst : Fld := ⟨.clrQRange, 0, 14⟩
def fClrQRangeCount : Fld := ⟨.clrQRange, 14, 15⟩
def fClrCtxRangeFirst : Fld := ⟨.clrCtxRange, 0, 12⟩
def fClrCtxRangeCount : Fld := ⟨.clrCtxRange, 12, 13⟩
def fClrQtabBase : Fld := ⟨.clrQtab, 12, 40⟩
def fClrCtxTabBase : Fld := ⟨.clrCtxTab, 12, 40⟩
def fClrQctlQueue : Fld := ⟨.clrQctl, 0, 14⟩
def fClrQctlOp : Fld := ⟨.clrQctl, 16, 2⟩
def fClrQctlSlot : Fld := ⟨.clrQctl, 32, 32⟩
def fClrQctlStatBusy : Fld := ⟨.clrQctlStat, 0, 1⟩
def fClrQctlStatResult : Fld := ⟨.clrQctlStat, 1, 3⟩
def fClrQctlStatOps : Fld := ⟨.clrQctlStat, 32, 32⟩
def fClrRtReserveTiles : Fld := ⟨.clrRtReserve, 0, 48⟩
def fClrCommitSeqSeq : Fld := ⟨.clrCommitSeq, 0, 64⟩
def fClrFencePostVaVa : Fld := ⟨.clrFencePostVa, 6, 51⟩
def fClrFencePostContext : Fld := ⟨.clrFencePost, 0, 12⟩
def fClrFencePostCode : Fld := ⟨.clrFencePost, 16, 16⟩
def fClrFencePostStatBusy : Fld := ⟨.clrFencePostStat, 0, 1⟩
def fClrFencePostStatResult : Fld := ⟨.clrFencePostStat, 1, 2⟩
def fXltFqBaseBase : Fld := ⟨.xltFqBase, 12, 40⟩
def fXltFqCtlLog2Size : Fld := ⟨.xltFqCtl, 0, 4⟩
def fXltFqCtlIntEn : Fld := ⟨.xltFqCtl, 4, 1⟩
def fXltFqProdProd : Fld := ⟨.xltFqProd, 0, 32⟩
def fXltFqConsCons : Fld := ⟨.xltFqCons, 0, 32⟩
def fXltFqOvfOvf : Fld := ⟨.xltFqOvf, 0, 32⟩
def fXltFqOvfStalled : Fld := ⟨.xltFqOvf, 32, 16⟩
def fXltFqResolveRecord : Fld := ⟨.xltFqResolve, 0, 32⟩
def fXltFqResolveVerdict : Fld := ⟨.xltFqResolve, 32, 2⟩
def fMntNegDrvMinor : Fld := ⟨.mntNegDrv, 0, 8⟩
def fMntNegDrvMajor : Fld := ⟨.mntNegDrv, 8, 8⟩
def fMntNegDrvOffered : Fld := ⟨.mntNegDrv, 16, 16⟩
def fMntNegDrvRequired : Fld := ⟨.mntNegDrv, 32, 16⟩
def fMntNegStatMinor : Fld := ⟨.mntNegStat, 0, 8⟩
def fMntNegStatMajor : Fld := ⟨.mntNegStat, 8, 8⟩
def fMntNegStatEnabled : Fld := ⟨.mntNegStat, 16, 16⟩
def fMntNegStatResult : Fld := ⟨.mntNegStat, 32, 2⟩
def fPrtCtlOp : Fld := ⟨.prtCtl, 0, 2⟩
def fPrtStatState : Fld := ⟨.prtStat, 0, 2⟩
def fPrtStatBusy : Fld := ⟨.prtStat, 2, 1⟩
def fPrtStatResult : Fld := ⟨.prtStat, 3, 3⟩
def fPrtStatScrubLeft : Fld := ⟨.prtStat, 16, 12⟩
def fPrtBwTokens : Fld := ⟨.prtBw, 0, 20⟩
def fTmpBeatsScrub : Fld := ⟨.tmpBeats, 0, 6⟩
def fTmpBeatsRemap : Fld := ⟨.tmpBeats, 6, 6⟩
def fTmpBeatsShadow : Fld := ⟨.tmpBeats, 12, 6⟩
def fTmpBeatsCarve : Fld := ⟨.tmpBeats, 18, 6⟩
def fTmpBeatsSnoop : Fld := ⟨.tmpBeats, 24, 6⟩
def fTmpBeatsTelem : Fld := ⟨.tmpBeats, 30, 6⟩
def fTmpBeatsFwdma : Fld := ⟨.tmpBeats, 36, 6⟩
def fTmpBeatsCutin : Fld := ⟨.tmpBeats, 42, 6⟩
def fTmpBeatsProm : Fld := ⟨.tmpBeats, 48, 6⟩
def fTmpBeatsLend : Fld := ⟨.tmpBeats, 63, 1⟩
def fTmpStatTenantTokens : Fld := ⟨.tmpStat, 0, 20⟩
def fTmpStatBand : Fld := ⟨.tmpStat, 20, 2⟩
def fTmpStatBacklog : Fld := ⟨.tmpStat, 22, 26⟩
def fXltWinBaseBase : Fld := ⟨.xltWinBase, 12, 40⟩
def fXltWinBaseEnable : Fld := ⟨.xltWinBase, 63, 1⟩
def fXltWinInvalWindow : Fld := ⟨.xltWinInval, 0, 16⟩
def fXltWinStatBusy : Fld := ⟨.xltWinStat, 0, 1⟩
def fXltWinStatRefused : Fld := ⟨.xltWinStat, 32, 32⟩
def fShcPfCtlEnable : Fld := ⟨.shcPfCtl, 0, 1⟩
def fShcHomeCtlNackMode : Fld := ⟨.shcHomeCtl, 0, 1⟩
def fShcHomeCtlTimeout : Fld := ⟨.shcHomeCtl, 8, 10⟩
def fShcHomeStatTxnActive : Fld := ⟨.shcHomeStat, 0, 9⟩
def fShcHomeStatReservations : Fld := ⟨.shcHomeStat, 16, 16⟩
def fShcHomeStatTimeouts : Fld := ⟨.shcHomeStat, 32, 16⟩
def fShcAgentDeadDead : Fld := ⟨.shcAgentDead, 0, 14⟩
def fShcWaysWays : Fld := ⟨.shcWays, 0, 20⟩
def fHbmFwMapBlock : Fld := ⟨.hbmFwMap, 0, 64⟩
def fHbmRasCtlCeThresh : Fld := ⟨.hbmRasCtl, 0, 8⟩
def fHbmRasCtlScrubHours : Fld := ⟨.hbmRasCtl, 8, 8⟩
def fHbmRasCtlPprAtReset : Fld := ⟨.hbmRasCtl, 16, 1⟩
def fHbmStackStatTemp : Fld := ⟨.hbmStackStat, 0, 8⟩
def fHbmStackStatBand : Fld := ⟨.hbmStackStat, 8, 2⟩
def fHbmStackStatThrottle : Fld := ⟨.hbmStackStat, 10, 1⟩
def fHbmStackStatClamp : Fld := ⟨.hbmStackStat, 11, 1⟩
def fHbmStackStatRemapUsed : Fld := ⟨.hbmStackStat, 12, 13⟩
def fHbmStackStatPprPending : Fld := ⟨.hbmStackStat, 25, 13⟩
def fHbmStackStatUeCount : Fld := ⟨.hbmStackStat, 38, 16⟩
def fHbmReplPairPrimary : Fld := ⟨.hbmReplPair, 0, 11⟩
def fHbmReplPairReplica : Fld := ⟨.hbmReplPair, 16, 11⟩
def fHbmReplPairValid : Fld := ⟨.hbmReplPair, 63, 1⟩
def fLpmRasStatCeCount : Fld := ⟨.lpmRasStat, 0, 32⟩
def fLpmRasStatPoisoned : Fld := ⟨.lpmRasStat, 32, 16⟩
def fMntResetCauseKind : Fld := ⟨.mntResetCause, 0, 2⟩
def fMntResetCauseCause : Fld := ⟨.mntResetCause, 2, 4⟩
def fMntResetCauseSite : Fld := ⟨.mntResetCause, 6, 7⟩
def fMntResetCauseAgent : Fld := ⟨.mntResetCause, 14, 14⟩
def fMntResetCauseWarmCount : Fld := ⟨.mntResetCause, 28, 16⟩
def fMntCoreStatCoreState : Fld := ⟨.mntCoreStat, 0, 12⟩
def fMntCoreStatExpiries : Fld := ⟨.mntCoreStat, 12, 16⟩
def fMntBootStatStage : Fld := ⟨.mntBootStat, 0, 4⟩
def fMntBootStatStacksFull : Fld := ⟨.mntBootStat, 4, 24⟩
def fMntBootStatPromUp : Fld := ⟨.mntBootStat, 28, 1⟩
def fMntBootStatWalkMs : Fld := ⟨.mntBootStat, 29, 16⟩
def fMntBootStatFullMs : Fld := ⟨.mntBootStat, 45, 16⟩
def fMntPwrCtlCapW : Fld := ⟨.mntPwrCtl, 0, 13⟩
def fMntPwrCtlTileTarget : Fld := ⟨.mntPwrCtl, 13, 8⟩
def fMntPwrStatInputW : Fld := ⟨.mntPwrStat, 0, 13⟩
def fMntPwrStatBrake : Fld := ⟨.mntPwrStat, 13, 1⟩
def fMntPwrStatCapThrottle : Fld := ⟨.mntPwrStat, 14, 1⟩
def fMntPwrStatEmergency : Fld := ⟨.mntPwrStat, 15, 1⟩
def fMntPwrStatLoopsHeld : Fld := ⟨.mntPwrStat, 16, 1⟩
def fMntPwrStatSupply : Fld := ⟨.mntPwrStat, 17, 8⟩
def fMntPwrStatEmergencies : Fld := ⟨.mntPwrStat, 25, 16⟩
def fMntPwrStatClear100ms : Fld := ⟨.mntPwrStat, 41, 1⟩
def fMntMboxCmdOp : Fld := ⟨.mntMboxCmd, 0, 8⟩
def fMntMboxCmdSlot : Fld := ⟨.mntMboxCmd, 8, 14⟩
def fMntMboxCmdSlots : Fld := ⟨.mntMboxCmd, 22, 14⟩
def fMntMboxCmdArg : Fld := ⟨.mntMboxCmd, 36, 28⟩
def fMntMboxStatBusy : Fld := ⟨.mntMboxStat, 0, 1⟩
def fMntMboxStatResult : Fld := ⟨.mntMboxStat, 1, 2⟩
def fMntMboxStatSeq : Fld := ⟨.mntMboxStat, 32, 32⟩
def fMntIntBaseIntBase : Fld := ⟨.mntIntBase, 0, 32⟩
def fMntFwStatState : Fld := ⟨.mntFwStat, 0, 4⟩
def fMntFwStatStep : Fld := ⟨.mntFwStat, 4, 4⟩
def fMntFwStatRunning : Fld := ⟨.mntFwStat, 8, 32⟩
def fMntFwStatStaged : Fld := ⟨.mntFwStat, 40, 24⟩
def fMntIdStatIdValid : Fld := ⟨.mntIdStat, 0, 1⟩
def fMntWdogCtlPeriodMs : Fld := ⟨.mntWdogCtl, 0, 7⟩
def fMntIdPubkeyKey : Fld := ⟨.mntIdPubkey, 0, 64⟩
def fMntNegMaskAllow : Fld := ⟨.mntNegMask, 0, 16⟩
def fFlrTestCtlSiteUnlock : Fld := ⟨.flrTestCtl, 0, 1⟩
def fFlrTestCtlFullUnlock : Fld := ⟨.flrTestCtl, 1, 1⟩
def fFlrTestCtlSelected : Fld := ⟨.flrTestCtl, 2, 8⟩
def fFlrLaserStatLit : Fld := ⟨.flrLaserStat, 0, 10⟩
def fFlrLaserStatDataMap : Fld := ⟨.flrLaserStat, 10, 10⟩
def fFlrLaserStatSpares : Fld := ⟨.flrLaserStat, 20, 2⟩
def fFlrLaserStatWeak : Fld := ⟨.flrLaserStat, 22, 10⟩
def fFlrSiteStatRole : Fld := ⟨.flrSiteStat, 0, 2⟩
def fFlrSiteStatState : Fld := ⟨.flrSiteStat, 2, 3⟩
def fFlrSiteStatLogicalTile : Fld := ⟨.flrSiteStat, 5, 6⟩
def fFlrSiteStatPromUp : Fld := ⟨.flrSiteStat, 11, 5⟩
def fFlrSiteStatPllLock : Fld := ⟨.flrSiteStat, 16, 1⟩
def fFlrSiteStatTemp : Fld := ⟨.flrSiteStat, 17, 8⟩
def fFlrSiteStatClamp : Fld := ⟨.flrSiteStat, 25, 1⟩
def fFlrSiteStatCoreDiv : Fld := ⟨.flrSiteStat, 26, 5⟩
def fFlrChsStatState : Fld := ⟨.flrChsStat, 0, 2⟩
def fFlrChsStatGroupsAb : Fld := ⟨.flrChsStat, 2, 6⟩
def fFlrChsStatGroupsBa : Fld := ⟨.flrChsStat, 8, 6⟩
def fFlrChsStatSparesAb : Fld := ⟨.flrChsStat, 14, 6⟩
def fFlrChsStatSparesBa : Fld := ⟨.flrChsStat, 20, 6⟩
def fFlrChsStatRetrains : Fld := ⟨.flrChsStat, 26, 16⟩
def fFlrChsStatReplays : Fld := ⟨.flrChsStat, 42, 16⟩
def fFlrChsStatCutinPending : Fld := ⟨.flrChsStat, 58, 1⟩
def fUlkStatState : Fld := ⟨.ulkStat, 0, 2⟩
def fUlkStatHalf : Fld := ⟨.ulkStat, 2, 1⟩
def fUlkStatUpper : Fld := ⟨.ulkStat, 3, 1⟩
def fUlkStatSetsLog2 : Fld := ⟨.ulkStat, 4, 5⟩
def fUlkStatWays : Fld := ⟨.ulkStat, 9, 6⟩
def fUlkStatAllowRefused : Fld := ⟨.ulkStat, 15, 1⟩
def fUlkStatRetrains : Fld := ⟨.ulkStat, 16, 16⟩
def fUlkErrFecCorr : Fld := ⟨.ulkErr, 0, 32⟩
def fUlkErrReplays : Fld := ⟨.ulkErr, 32, 16⟩
def fUlkErrFecUncorr : Fld := ⟨.ulkErr, 48, 16⟩
def fUlkCtlRetrain : Fld := ⟨.ulkCtl, 0, 1⟩
def fUlkXwBaseBase : Fld := ⟨.ulkXwBase, 26, 26⟩
def fUlkXwBaseEnable : Fld := ⟨.ulkXwBase, 63, 1⟩
def fUlkXwFlagsFlags : Fld := ⟨.ulkXwFlags, 17, 35⟩
def fRelModuleIdId : Fld := ⟨.relModuleId, 0, 12⟩
def fRelRouteBaseBase : Fld := ⟨.relRouteBase, 12, 40⟩
def fRelPortStatState : Fld := ⟨.relPortStat, 0, 2⟩
def fRelPortStatDataWl : Fld := ⟨.relPortStat, 2, 4⟩
def fRelPortStatSpares : Fld := ⟨.relPortStat, 6, 2⟩
def fRelPortStatWlMap : Fld := ⟨.relPortStat, 8, 10⟩
def fRelPortStatRetrains : Fld := ⟨.relPortStat, 18, 16⟩
def fRelPortStatFecUncorr : Fld := ⟨.relPortStat, 34, 16⟩
def fCutStatStanding : Fld := ⟨.cutStat, 0, 5⟩
def fCutStatTileSpares : Fld := ⟨.cutStat, 5, 8⟩
def fCutStatHostSpares : Fld := ⟨.cutStat, 13, 4⟩
def fCutStatPending : Fld := ⟨.cutStat, 17, 6⟩
def fCutStatRecordGen : Fld := ⟨.cutStat, 32, 32⟩
def fCutWearCtlAgePct : Fld := ⟨.cutWearCtl, 0, 4⟩
def fCutWearCtlSramCe : Fld := ⟨.cutWearCtl, 4, 16⟩
def fCutPropValid : Fld := ⟨.cutProp, 0, 1⟩
def fCutPropState : Fld := ⟨.cutProp, 1, 2⟩
def fCutPropKind : Fld := ⟨.cutProp, 3, 3⟩
def fCutPropId : Fld := ⟨.cutProp, 6, 16⟩
def fCutPropSite : Fld := ⟨.cutProp, 22, 7⟩
def fCutPropUnit : Fld := ⟨.cutProp, 29, 20⟩
def fCutPropPartition : Fld := ⟨.cutProp, 49, 6⟩
def fCutPropReason : Fld := ⟨.cutProp, 55, 4⟩
def fShfTestKeyKey : Fld := ⟨.shfTestKey, 0, 64⟩
def fShfTestInDraw : Fld := ⟨.shfTestIn, 0, 58⟩
def fShfTestInThread : Fld := ⟨.shfTestIn, 58, 6⟩
def fShfTestCtlMode : Fld := ⟨.shfTestCtl, 0, 1⟩
def fShfTestOutResult : Fld := ⟨.shfTestOut, 0, 64⟩
def fMtrSnapCtlFirstSlot : Fld := ⟨.mtrSnapCtl, 0, 14⟩
def fMtrSnapCtlFirstCtx : Fld := ⟨.mtrSnapCtl, 14, 12⟩
def fMtrSnapCtlCount : Fld := ⟨.mtrSnapCtl, 26, 13⟩
def fMtrSnapCtlGo : Fld := ⟨.mtrSnapCtl, 63, 1⟩
def fMtrSnapStatBusy : Fld := ⟨.mtrSnapStat, 0, 1⟩
def fMtrSnapStatResult : Fld := ⟨.mtrSnapStat, 1, 2⟩
def fMtrSnapStatSnapSeq : Fld := ⟨.mtrSnapStat, 32, 32⟩

/-- The address of a register (R410, R418): a is the partition of a partition page register and b its instance; for a
device register a is the instance and b the second index. -/
def regAddr (r : Reg) (a b : Nat) : Nat :=
  let i := regInfo r
  if i.part then 0xFD00000000000 + a * 0x10000 + i.base + b * i.stride
  else 0xFF00000000000 + i.base + a * i.stride + b * i.stride2

/-- The key under which the state keeps a register's word: no two registers, whatever their indices, have the same. -/
def regKey (r : Reg) (a b : Nat) : Nat := ((a + b) * (a + b) + a) * 512 + r.ctorIdx

/-- A register's reset value from its fields. -/
def regReset (r : Reg) : Nat := ((regFields r).map fun f => f.reset * 2 ^ f.lo).sum

/-- The instance of a family at an offset within a partition page. -/
def partInstance (i : RegInfo) (off : Nat) : Option Nat :=
  if off < i.base then none
  else if i.stride = 0 then (if off = i.base then some 0 else none)
  else
    let x := off - i.base
    if x % i.stride = 0 && x / i.stride < i.count then some (x / i.stride) else none

/-- The instance of a family at an offset of the device control space. -/
def devInstance (i : RegInfo) (off : Nat) : Option (Nat × Nat) :=
  if off < i.base then none
  else
    let x := off - i.base
    let a := if i.stride = 0 then 0 else min (x / i.stride) (i.count - 1)
    let y := x - a * i.stride
    let b := if i.stride2 = 0 then 0 else y / i.stride2
    if y = b * i.stride2 && b < i.count2 then some (a, b) else none

/-- The register at an address, with its indices. -/
def regAt (addr : Nat) : Option (Reg × Nat × Nat) :=
  if 0xFD00000000000 ≤ addr && addr < 0xFD00000000000 + 48 * 0x10000 then
    let p := (addr - 0xFD00000000000) / 0x10000
    let off := (addr - 0xFD00000000000) % 0x10000
    allRegs.findSome? fun r =>
      if (regInfo r).part then (partInstance (regInfo r) off).map fun i => (r, p, i) else none
  else if 0xFF00000000000 ≤ addr && addr < 0xFF00010000000 then
    allRegs.findSome? fun r =>
      if (regInfo r).part then none
      else (devInstance (regInfo r) (addr - 0xFF00000000000)).map fun i => (r, i.1, i.2)
  else none

def inRanges (v : Nat) (rs : List (Nat × Nat)) : Bool := rs.any fun x => x.1 ≤ v && v ≤ x.2

/-- A software write over one field (R7, R10). -/
def fieldWrite (locked : Bool) (old new : Nat) (f : FieldInfo) : Nat :=
  let v := natBitsAt new f.lo f.w
  match f.acc with
  | .rw => if inRanges v f.reserved then old else natSetBits old f.lo f.w v
  | .rwl => if locked || inRanges v f.reserved then old else natSetBits old f.lo f.w v
  | .w1c => natSetBits old f.lo f.w (natBitsAt old f.lo f.w - Nat.land (natBitsAt old f.lo f.w) v)
  | _ => old

/-- A software write over a register's fields; bits of no field keep reading as 0 (R8). -/
def regWrite (r : Reg) (locked : Bool) (old new : Nat) : Nat :=
  (regFields r).foldl (fun v f => fieldWrite locked v new f) old

/-- What software reads: WO fields read as 0 (R7). -/
def regRead (r : Reg) (v : Nat) : Nat :=
  (regFields r).foldl (fun x f => if f.acc = .wo then natSetBits x f.lo f.w 0 else x) v

/-- A write that holds a reserved value in some field of its register (R434). -/
def regWriteReserved (r : Reg) (new : Nat) : Bool :=
  (regFields r).any fun f => inRanges (natBitsAt new f.lo f.w) f.reserved

end Sys2Proof.Machine
end

