-- ==== Sys2Proof/Machine/State.lean ====
section
/-! DEFINITION. The state of the block: everything the spec gives the FZ-4856, as plain data, and its value at reset.
Registers are kept once, in `Dev.regs`, under the key of the register and its indices; everything no register shows is kept in typed fields. -/

namespace Sys2Proof.Machine

open Sys2Proof


/-! ## Jular cores (02 to 06) -/

/-- A vector register of a group: element t is thread t's word; a missing element is 0 (R26). -/
abbrev Row := List W32

/-- Why a resident group or lead thread waits (R28, R47, R82, R225). -/
inductive Why where
  /-- a walk of this page of the command's context is under way or its fault is pending (R224, R225) -/
  | walk (page : Nat)
  /-- a shadow copy of this granule is being made (R234) -/
  | shadow (va : Nat)
  /-- a line is held by an explicit home transaction (R172) -/
  | line (pa : Nat)
  /-- the regulator of this instance has no tokens left in the measure (R305) -/
  | tokens (instance_ : Nat)
  /-- the answers of these remote accesses are outstanding (R333, R335) -/
  | remote (ids : List Nat)
  /-- an acquire waits for these remote reads; its acquire action follows them (R154, R156) -/
  | acquire (ids : List Nat)
  /-- WAITRING on a fill that is not FULL (R49) -/
  | ring (h : Nat)
  /-- BAR.UNIT at a barrier that has not released (R43) -/
  | barrier (b : Nat)
  /-- arrays bound to other groups, on each of which it waits (R82, R105) -/
  | array (as : List Nat)
  /-- a register whose drain has not been written (R28, R115) -/
  | drain (a : Nat)
  /-- this group raised an error: none of its later instructions issues (R91) -/
  | error
  /-- the event has happened; the group waits only to be woken -/
  | resolved
  deriving DecidableEq, Repr

/-- The scheduling states of a group (R27). A lead thread uses active, pendingWait and exited. -/
inductive Sched where
  | pendingReady
  | pendingWait (why : Why)
  | active
  | exited
  deriving DecidableEq, Repr

/-- A reconvergence stack entry with its pending mask (R34). -/
structure StackEntry where
  saved : Mask
  reconv : Nat
  pendTarget : Nat
  pendMask : Mask
  deriving DecidableEq, Repr

/-- The tensor statistics record (R128). -/
structure Stats where
  elements : W64
  zeros : W64
  saturations : W64
  nonfinite : W64
  arithSat : W64
  deriving DecidableEq, Repr

/-- One slot of the monitor record (R134). -/
structure MonSlot where
  updateSq : W64
  weightSq : W64
  elements : W32
  zeros : W32
  saturations : W32
  nonfinite : W32
  deriving DecidableEq, Repr

/-- A group's place in one ring (R49): the next fill it takes and the fill it holds. -/
structure RingUse where
  consume : Nat
  holds : Option Nat
  deriving DecidableEq, Repr

/-- A follow group, or a lead thread as a group whose one thread is thread 0 (R47, R57). -/
structure Grp where
  rank : Nat
  gidx : Nat
  live : Mask
  active : Mask
  stack : List StackEntry
  pc : Nat
  sched : Sched
  /-- order in which it became ready or began to wait (R29, R105) -/
  since : Nat
  v : SMap Row
  u : SMap W64
  p : SMap Mask
  key : W64
  draws : BitVec 58
  fieldWidth : Nat
  fieldPos : Nat
  drawBuf : List W64
  /-- the threads whose part of a memory instruction is still to be made, when some of it has been -/
  todo : Option Mask
  stats : Stats
  monitor : SMap MonSlot
  rings : SMap RingUse
  /-- remote loads and atomics whose answers are outstanding, with the registers each writes (R28, R333) -/
  away : List (Nat × List Nat)
  deriving DecidableEq, Repr

/-- A wide accumulator (R109): value (-1)^neg * f * 2^(max e 1 - 166), or its tag. -/
inductive WideTag where
  | finite
  | posInf
  | negInf
  | nan
  deriving DecidableEq, Repr

structure Wide where
  neg : Bool
  e : BitVec 8
  f : BitVec 40
  tag : WideTag
  deriving DecidableEq, Repr

/-- The binding of an array (R105). -/
inductive Binding where
  | free
  | held (g : Nat)
  | chain (g : Nat) (bank : Bool)
  deriving DecidableEq, Repr

/-- A weight buffer (R106): who issued the last WLOAD into it, of which format, and the tile written. -/
structure WeightBuf where
  owner : Option Nat
  fmt : Nat
  tile : List Byte
  deriving DecidableEq, Repr

/-- The drain a bank awaits (R108, R112): destination group and register, format, statistics, array width. -/
structure Drain where
  g : Nat
  vd : Nat
  bf16 : Bool
  stat : Bool
  width : Nat
  deriving DecidableEq, Repr

inductive BankState where
  | free
  | opened
  | draining (dr : Drain)
  deriving DecidableEq, Repr

/-- An accumulator bank (R105): accumulator (m, n) at key 32m + n, unlisted +0. -/
structure Bank where
  st : BankState
  acc : SMap Wide
  deriving DecidableEq, Repr

/-- Work issued to an array and not yet done, in issue order (R83, R99, R114): a tile on its way to a buffer; the
activation rows of an MMA (each row the 32 element codes and the scale). -/
inductive ArrOp where
  | load (buf : Bool) (tile : List Byte)
  | mac (bank : Bool) (buf : Bool) (fmt : Nat) (rows : List (List Nat × Nat))
  deriving DecidableEq, Repr

/-- A presented matrix array of a running troupe. -/
structure ArrayRun where
  binding : Binding
  buf0 : WeightBuf
  buf1 : WeightBuf
  bank0 : Bank
  bank1 : Bank
  ops : List ArrOp
  deriving DecidableEq, Repr

/-- A fill of a ring in a slot that is not EMPTY (R48): its number, its source (R89), the bytes read so far, whether all have
arrived, and whether the source was poisoned (R50). -/
structure Fill where
  num : Nat
  va : Nat
  rowBytes : Nat
  rows : Nat
  stride : Nat
  bytes : List Byte
  arrived : Bool
  poisoned : Bool
  deriving DecidableEq, Repr

/-- A ring's table entry (R51) and its fills. -/
structure Ring where
  base : Nat
  slots : Nat
  slotSize : Nat
  consumers : Nat
  leadEntry : Nat
  next : Nat
  fills : List Fill
  deriving DecidableEq, Repr

/-- The fields of a kernel header that the cores use (R51). -/
structure Header where
  vregs : Nat
  unit : Nat
  groups : Nat
  maxDiverge : Nat
  nearCache : Nat
  arrayWidth : Nat
  minArrays : Nat
  followEntry : Nat
  codeWords : Nat
  scratchBytes : Nat
  rings : List Ring
  deriving DecidableEq, Repr

/-- A troupe running on a core (R25, R39, R40). -/
structure Run where
  part : Nat
  q : Nat
  slot : Nat
  ctx : Nat
  troupe : Nat
  /-- the cores of the unit in its logical order, and this core's place among them (R40) -/
  cores : List Nat
  place : Nat
  hdr : Header
  /-- the attempt runs under walk-through limits (R400) -/
  walk : Bool
  /-- next-line prefetch of the near cache, as set at troupe start (R162) -/
  prefetch : Bool
  seq : W64
  args : List W64
  groups : SMap Grp
  leads : SMap Grp
  rings : List Ring
  scratch : Mem
  arrays : List ArrayRun
  /-- the group whose MMA holds the matrix unit until a bank becomes free (R108) -/
  mtx : Option Nat
  clock : Nat
  deriving DecidableEq, Repr

/-- A line of a near cache (R155): its line address, bytes, and for each byte whether it is valid, dirty and filled
from poisoned data (R81). -/
structure NearLine where
  line : Nat
  va : Nat
  data : Line
  valid : Mask
  dirty : Mask
  poison : Mask
  deriving DecidableEq, Repr

/-- The physical arrays of a core (R116): failed columns, a failed row, the spare column lost to a declined cut-in,
a cut-in awaiting approval. -/
structure ArrayHw where
  failedCols : List Nat
  rowFailed : Bool
  spareLost : Bool
  pendingCutin : Bool
  deriving DecidableEq, Repr

/-! ## Translation (09) -/

/-- A WINDOW range entry's destination (R217): module, window ID, key. -/
structure WinRef where
  module_ : Nat
  window : Nat
  key : Nat
  deriving DecidableEq, Repr

/-- A cached translation (R223): a LINEAR or WINDOW range entry, or one granule of a GRANULAR range. -/
structure Xent where
  ctx : Nat
  /-- first page and pages covered -/
  page : Nat
  pages : Nat
  /-- the first page of the range entry, which a window offset and a RIGHTS span count from -/
  rangePage : Nat
  rangePages : Nat
  /-- physical address of the first page covered; not used by a window -/
  pa : Nat
  read : Bool
  write : Bool
  atomic : Bool
  sole : Bool
  granular : Bool
  /-- GRANULAR: the physical address of the granule's word -/
  word : Nat
  window : Option WinRef
  deriving DecidableEq, Repr

/-- The access types a translation is asked for (R217). -/
inductive Access where
  | read | write | atomic
  deriving DecidableEq, Repr

/-- A stream waiting on a walk (R223): the command it belongs to, or a queue's reading of a slot; the follow group or lead thread it
is, none for a channel or the Caller's dispatch; its access; whether it is a ring fill; the address of the access that missed. -/
structure Strm where
  q : Nat
  slot : Nat
  slotRead : Bool
  who : Option Who
  access : Access
  fill : Bool
  va : Nat
  deriving DecidableEq, Repr

/-- A walk of a page waited for in a tile; tile 48 is the Caller's dispatch (R223). key is the pending fault's key while
the walk has ended in one (R225): the cause and span. -/
structure Walk where
  tile : Nat
  ctx : Nat
  page : Nat
  streams : List Strm
  fault : Option (Nat × Nat × Nat)
  deriving DecidableEq, Repr

/-- A pending fault record (R225): its number and key. -/
structure FaultRec where
  num : Nat
  ctx : Nat
  cause : Nat
  span : Nat
  spanPages : Nat
  /-- tracked for coalescing -/
  tracked : Bool
  deriving DecidableEq, Repr

/-- A fault waiting for a record's entry (R226), with what its record will hold; stalled is the stream that waits with it. -/
structure FaultWait where
  ctx : Nat
  cause : Nat
  span : Nat
  spanPages : Nat
  va : Nat
  access : Nat
  fill : Bool
  q : Nat
  seen : W64
  time : W64
  stalled : Option Strm
  deriving DecidableEq, Repr

/-! ## The Caller (10, 11) -/

/-- The states of a queue (R245). -/
inductive QState where
  | free | active | stopped | destroying
  deriving DecidableEq, Repr

/-- The states of a command that has been read and not retired (R257). -/
inductive CState where
  | held | dispatch | waiting | ready | running | committing | committed
  deriving DecidableEq, Repr

/-- The engine classes of queues (R243). -/
inductive QClass where
  | compute | copy | collective | signal
  deriving DecidableEq, Repr

/-- Where a fence lies (R269): a physical line, or in another module's window. -/
inductive FencePlace where
  | local_ (pa : Nat)
  | remote (w : WinRef) (off : Nat)
  deriving DecidableEq, Repr

/-- A shadow granule (R234): granule number of the virtual address, the original and the shadow granule, whether its copy is still to be
made, and how many of its lines have been copied. -/
structure Shadow where
  granule : Nat
  old : Nat
  new : Nat
  copying : Bool
  next : Nat
  deriving DecidableEq, Repr

/-- The modes of an output (R252). -/
inductive OutMode where
  | cow | overwrite | inplace
  deriving DecidableEq, Repr

/-- A declared output as dispatched (R233, R252). -/
structure Output where
  va : Nat
  len : Nat
  mode : OutMode
  /-- COW, OVERWRITE: the granule table's address and the first page of the range -/
  table : Nat
  rangePage : Nat
  shadows : List Shadow
  deriving DecidableEq, Repr

/-- The engines a command may hold (R264, R435): a Jular core, a copy channel, a collective engine of a bridge, the
signal unit of a queue. -/
inductive Engine where
  | core (k : Nat)
  | channel (tile : Nat) (ch : Nat)
  | collective (bridge : Nat)
  | signalUnit (q : Nat)
  deriving DecidableEq, Repr

/-- The order last sent to an engine (R264). -/
inductive Order where
  | none | drain | kill
  deriving DecidableEq, Repr

structure EngineRef where
  eng : Engine
  order : Order
  acked : Bool
  deriving DecidableEq, Repr

/-- A kill that has reached the arbiter (R280): a pre-emption, a unit or tile fault (R369), the approved cut-in of a tile (R407), or one
that ends the command with a code. -/
inductive KillWhy where
  | preempt
  | unitFault
  | cutin
  | ends (code : Nat)
  deriving DecidableEq, Repr

/-- A KERNEL as dispatched (R240 to R242, R253). -/
structure KernelJob where
  kva : Nat
  hdr : Header
  unit : Nat
  stream : Nat
  threads : Nat
  seed : W64
  seq : W64
  args : List W64
  /-- troupes of the launch, the next to place, and those ended -/
  troupes : Nat
  next : Nat
  ended : Nat
  /-- the units granted: each the list of its cores -/
  units : List (List Nat)
  deriving DecidableEq, Repr

/-- A member entry of a collective group descriptor (R341). -/
structure Member where
  module_ : Nat
  dstWin : Nat
  stgWin : Nat
  key : Nat
  deriving DecidableEq, Repr

/-- A COLLECTIVE as dispatched (R340 to R344), with its progress in bytes: its own piece written, its pieces sent, pieces of others
added to its shard, its shard combined in rank order, its finished shard sent on. -/
structure CollJob where
  src : Nat
  dst : Nat
  elements : Nat
  op : Nat
  dtype : Nat
  ordered : Bool
  n : Nat
  rank : Nat
  root : Nat
  group : Nat
  epoch : Nat
  staging : Option Nat
  members : List Member
  bridge : Nat
  own : Nat
  sent : Nat
  added : Nat
  combined : Nat
  spread : Nat
  done : Bool
  deriving DecidableEq, Repr

/-- What a command does, with its HREFs relocated (R242). -/
inductive Body where
  | undispatched
  | kernel (k : KernelJob)
  | copy (src dst rowBytes rows srcStride dstStride moved : Nat)
  | fill (pattern : W64) (dst rowBytes rows dstStride moved : Nat)
  | collective (j : CollJob)
  | wait (va : Nat) (place : FencePlace) (target : W64)
  | signal (va : Nat) (place : FencePlace) (v : W64)
  /-- begun: steps 1 to 3 of R221 are over; done: steps 4 to 6 too -/
  | rangeSync (seq : W64) (page pages : Nat) (root : Option Nat) (begun done : Bool)
  | marker (stamp : Option Nat) (value : W64) (done : Bool)
  deriving DecidableEq, Repr

/-- A command read from a ring and not retired (R249, R257). -/
structure Cmd where
  slot : Nat
  words : List W64
  st : CState
  body : Body
  fenceVa : Nat
  fence : Option FencePlace
  outputs : List Output
  engines : List EngineRef
  /-- order of dispatch, of becoming READY and of entering RUNNING (R233, R262, R297) -/
  dispatched : Nat
  readyAt : Nat
  runningAt : Nat
  kills : Nat
  unitFaults : Nat
  /-- the sequence number of a KERNEL, from its first entry into DISPATCH (R140, R257) -/
  seq : Option W64
  /-- the kill recorded at the arbiter, if any (R280) -/
  kill : Option KillWhy
  /-- it holds one of the fence watch entries (R265) -/
  watch : Bool
  /-- its attempt entered RUNNING in walk-through service (R400) -/
  walk : Bool
  /-- a kill sent to the arbiter that has not reached it yet (R280); an error of its own sends one (R46, R92) -/
  sent : Option KillWhy
  deriving DecidableEq, Repr

/-- A queue (R243, R245, R246). -/
structure Queue where
  st : QState
  part : Nat
  ctx : Nat
  cls : QClass
  prio : Nat
  priv : Bool
  log2 : Nat
  execTimeout : Nat
  waitTimeout : Nat
  ring : Nat
  errFence : Option Nat
  head : W32
  tail : W32
  retired : W32
  stopCode : Nat
  stopSlot : W32
  badTail : Bool
  foreign : W32
  cmds : List Cmd
  /-- the last 16 retirements: slot number and whether it committed (R244) -/
  recent : List (Nat × Bool)
  deriving DecidableEq, Repr

/-- A signal or an error store on its way to a fence (R270, R272). -/
inductive FenceOp where
  | absolute (place : FencePlace) (v : W64) (q slot : Nat)
  | relative (place : FencePlace) (v : W64) (q slot : Nat)
  | error (place : FencePlace) (code : Nat) (q slot : Nat) (posted : Bool)
  deriving DecidableEq, Repr

/-- The operation CLR_QCTL has in progress (R244); an ABORT, whether it has reached the arbiter (R283). -/
inductive QOp where
  /-- a CREATE whose reads wait for their tokens or lines (R306) -/
  | create (q : Nat)
  | destroy (q : Nat)
  | abort (q slot : Nat) (arrived : Bool)
  deriving DecidableEq, Repr

/-- A re-initialisation in progress (R371): what triggered it, and the tiles still in reset. -/
structure Reinit where
  cause : Nat
  site : Nat
  tiles : List Nat
  /-- it runs within a dissolution (R293) -/
  dissolving : Bool
  /-- the partition's cycle counter at the trigger -/
  since : Nat
  deriving DecidableEq, Repr

/-- What no register shows of a partition. -/
structure Part where
  cycles : W64
  pendFaults : List FaultRec
  waitFaults : List FaultWait
  /-- signals and error stores in the order they leave (R272) -/
  signals : List FenceOp
  errors : List FenceOp
  qop : Option QOp
  reinit : Option Reinit
  /-- XLT_FQ_CTL as it stood at activation (R309) -/
  fqCtl : W64
  deriving DecidableEq, Repr

/-- A Jular core (02): lanes, arrays, near cache, TLB, and the troupe it runs. -/
structure Core where
  lanesFailed : List Nat
  laneSpareLost : Bool
  lanePending : Bool
  arrayHw : List ArrayHw
  /-- a check failed and the commands with groups here have not ended yet (R32, R116) -/
  stopped : Bool
  nearUnits : Nat
  near : List NearLine
  /-- an INV.NEAR has been done and no near-cache-path access since (R159) -/
  invClean : Bool
  /-- the near cache was enlarged without one: a line not present may read as stale bytes (R159) -/
  stale : Bool
  /-- the range TLB, oldest first (R223) -/
  tlb : List Xent
  run : Option Run
  deriving DecidableEq, Repr

/-! ## Coherence and memory (07, 08) -/

/-- The state an agent holds a line in (07, R173). -/
inductive LState where
  | i | s | e | m
  deriving DecidableEq, Repr

/-- The request an agent has outstanding for a line (R173). -/
inductive AgentReq where
  | rdShared | rdOwn | claimOwn
  deriving DecidableEq, Repr

/-- Who makes a request (R170, R306, R307): the partition whose budget it takes (48 without one), its context, the quadrant of its die,
none for a request that meets the home itself, and its number at the homes (R181, log 22). -/
structure Rq where
  part : Nat
  ctx : Option Nat
  quad : Option Nat
  num : Nat
  deriving DecidableEq, Repr

/-- Requests that carry no partition tag: the row p = 48 (R305, R210). -/
def Rq.provider : Rq := { part := 48, ctx := none, quad := none, num := 4095 }

/-- A line at a caching agent (R173, R174, R179): its copy, the ownership hold, whether a local access completed during the hold, a snoop
that waits (true for SNP_INV), an outstanding request, an eviction or write-back in flight, and the request that brought the line (R210). -/
structure ALine where
  st : LState
  data : Line
  poison : Bool
  hold : Bool
  used : Bool
  snoop : Option Bool
  req : Option AgentReq
  leaving : Bool
  rq : Rq
  deriving DecidableEq, Repr

/-- A request at a home (07, table of messages), of an agent with the request it makes it for; of a host hart for an LPDDR5X line (R168);
and a write of the Caller or Minuet that met an open transaction (R175). -/
inductive HomeReq where
  | rdShared (a : Nat) (rq : Rq)
  | rdOwn (a : Nat) (rq : Rq)
  | claimOwn (a : Nat) (rq : Rq)
  | evict (a : Nat)
  | writeBack (a : Nat) (rq : Rq) (data : Line) (poison : Bool)
  | hostRd (rq : Rq) (hart : Nat) (fetch : Bool)
  | hostWr (rq : Rq) (mask : Mask) (bytes : Line)
  | poke (rq : Rq) (mask : Mask) (bytes : Line)
  | strRd (rq : Requester) (found : Finding)
  | strWr (rq : Requester) (mask : Mask) (bytes : Line)
  | strAtom (rq : Requester) (off : Nat) (aop : Nat) (wide : Bool) (v c : W64)
  deriving DecidableEq, Repr

/-- A transaction at a home (R175): started once it is the first for its line; the agents whose snoop response is awaited
and those that owe DATA. -/
structure Txn where
  home : Nat
  line : Nat
  req : HomeReq
  started : Bool
  awaiting : List Nat
  owed : List Nat
  deriving DecidableEq, Repr

/-- Coherence messages in flight (07). -/
inductive CohMsg where
  | snp (line agent : Nat) (inv : Bool)
  | resp (line agent : Nat) (st : LState) (owesData : Bool) (leaving : Bool)
  | toHome (line agent : Nat) (data : Line) (poison : Bool)
  | grant (line agent : Nat) (st : LState) (withData : Bool) (data : Line) (poison : Bool)
  | toRequester (line num : Nat) (data : Line) (poison : Bool)
  | redirect (line : Nat) (who : Sender) (replica : Nat) (req : HomeReq)
  deriving DecidableEq, Repr

/-- A stream request at a bridge waiting until the bridge holds its LPDDR5X line (R176). -/
structure StrWait where
  agent : Nat
  line : Nat
  req : HomeReq
  deriving DecidableEq, Repr

/-- A line kept in a shared-cache slice (R210): way, the partition whose request allocated it, dirty. The list of lines is
most recently used first. -/
structure ShcLine where
  slice : Nat
  line : Nat
  way : Nat
  part : Nat
  dirty : Bool
  deriving DecidableEq, Repr

/-- A remapped unit of a stack (R203, R205): lines copied of 1,024, and whether the next warm reset repairs it. -/
structure Remap where
  stack : Nat
  unit : Nat
  reserve : Nat
  copied : Nat
  ppr : Bool
  deriving DecidableEq, Repr

/-- The coherence domain. -/
structure Coh where
  /-- agents' lines by 16 * line + agent -/
  lines : SMap ALine
  /-- the homes' duplicate tags, by 16 * line + agent (R171) -/
  tags : SMap LState
  /-- lines whose tag entry had an uncorrectable error (R172) -/
  suspect : List Nat
  txns : List Txn
  msgs : List CohMsg
  waits : List StrWait
  /-- reservations in the order recorded: home, requester (R180) -/
  reservations : List (Nat × Nat)
  /-- consecutive NACKs of a requester from a home, by 8192 * home + requester (R181) -/
  nacks : SMap Nat
  /-- requesters in backoff, with the cycles to wait (R181): home, requester, SHC cycles -/
  backoff : List (Nat × Nat × Nat)
  /-- stream requests turned away and not yet accepted: line, requester, request (R178) -/
  refused : List (Nat × Nat × HomeReq)
  /-- which homes know which agents to be dead (R184): home, agent -/
  told : List (Nat × Nat)
  shc : List ShcLine
  deriving DecidableEq, Repr

/-- The stacks' and channels' upkeep (08). -/
structure Hbm where
  remaps : List Remap
  /-- corrected errors of a remap unit in this scrub pass, by 1048576 * stack + unit (R203) -/
  corrected : SMap Nat
  /-- lines stored with an uncorrectable code word (R199) -/
  bad : List Nat
  /-- lines stored with one symbol in error (R199) -/
  weak : List Nat
  /-- refresh rate reported by each LPDDR5X channel's devices: 0, 1, 2 (R193) -/
  lpRates : SMap Nat
  /-- LPDDR5X units that the configuration record shows as withdrawn (R2, R404) -/
  lpWithdrawn : List Nat
  /-- stacks that failed to train at 8 Gb/s and stay at 4 Gb/s (R402) -/
  slow : List Nat
  deriving DecidableEq, Repr

/-! ## Tempo and metering (12) -/

/-- A unit being scrubbed (R294): instance, unit (LPDDR5X units from 2048 up), former partition, next line. -/
structure Scrub where
  inst : Nat
  unit : Nat
  part : Nat
  next : Nat
  deriving DecidableEq, Repr

/-- The six counters of a context (R307). -/
structure Meter where
  coreCycles : W64
  preemptCycles : W64
  arrayMacs : W64
  hbmBytes : W64
  lpddrBytes : W64
  commits : W64
  deriving DecidableEq, Repr

structure Tempo where
  /-- measures begun at each instance (R301) -/
  measures : SMap W64
  /-- tokens left of each regulator, by 64 * instance + partition (R305) -/
  budgets : SMap Nat
  /-- the partition served last under lending at each instance (R303) -/
  lent : SMap Nat
  /-- requests served under lending in the measure, by instance (R303) -/
  lentLines : SMap Nat
  /-- lines that internal activities have moved in the measure, by 16 * instance + activity (R301) -/
  used : SMap Nat
  /-- TMP_BEATS words waiting for a measure boundary (R302) -/
  beats : SMap W64
  /-- stack bands waiting for a boundary (R207) -/
  bands : SMap Nat
  scrubs : List Scrub
  meters : SMap Meter
  /-- fractions of a CORE cycle, in units of 1/(25 * divider) of a REF tick, by core -/
  fractions : SMap Nat
  /-- CORE cycles of the attempt that runs on a core, by core (R307) -/
  attempt : SMap Nat
  /-- a metering snapshot in progress: slot, first context, contexts; and its record, once sampled (R308) -/
  snapshot : Option (Nat × Nat × Nat)
  sampled : Option (List Byte)
  deriving DecidableEq, Repr

/-! ## What leaves the block -/

/-- The access-fault exceptions of a hart (R315): load, instruction, store. -/
inductive HartCause where
  | load | fetch | store
  deriving DecidableEq, Repr

/-- Answers, messages, interrupts and pin edges that other parties see. -/
inductive Emission where
  /-- an access-fault exception taken by a host hart (R314, R315) -/
  | hartFault (h : Nat) (cause : HartCause)
  /-- an illegal-instruction exception taken by a host hart (R313) -/
  | hartIllegal (h : Nat)
  /-- an interrupt delivered to an IMSIC file of a hart (R316): hart, file, EIID -/
  | irq (target hart file eiid : Nat)
  /-- an interrupt or message to the companion by number (R325) -/
  | companion (kind : Nat) (value : Nat)
  /-- the answer to a read: a word or poisoned data -/
  | answer (value : Nat) (poison : Bool)
  /-- the completion of a configuration write (R322) -/
  | completion
  /-- a line delivered to a stream requester or the companion -/
  | line (num line : Nat) (data : Line) (poison : Bool)
  /-- a DATA with a redirect mark (R214, R323): the line read, and that of the replica -/
  | redirected (num line replica : Nat)
  /-- a message on Reel: module, kind, payload words -/
  | reel (module_ kind : Nat) (payload : List Nat)
  /-- an answer on the sideband or a test port -/
  | sideband (kind : Nat) (value : Nat)
  /-- an edge of a pin -/
  | pin (name : String) (level : Bool)
  deriving DecidableEq, Repr

/-! ## Beyond the floor: host complex, Ulitum Link, Reel, collectives (13, 14) -/

/-- The Ulitum Link's link layer (R318, R320): the next flit number expected, the number the companion last acknowledged, how often the
flit now awaited has been replayed, and interrupts owed to the companion while the link is not UP; the number of the next flit sent, the
retry buffer with the flits that the companion has not acknowledged, and messages that wait for room there. -/
structure Ulk where
  expect : Nat
  acked : Nat
  replays : Nat
  owed : List (Nat × Nat)
  next : Nat
  buffer : List (Nat × Emission)
  held : List Emission
  deriving DecidableEq, Repr

/-- The host cores (R310 to R313): harts out of reset, the FZCTX CSR of each, logical IDs whose core has failed and not
been replaced. -/
structure HostCx where
  running : List Nat
  /-- the address at which the firmware of a running hart entered HS-mode (R311) -/
  entry : SMap Nat
  /-- identities pending in the IMSIC files: hart, file, identity (R310, R316) -/
  imsic : List (Nat × Nat × Nat)
  fzctx : SMap W64
  failed : List Nat
  ulk : Ulk
  /-- the firmware images that host cores leaving reset run (R392): running and staged version -/
  fwRunning : Nat
  fwStaged : Option Nat
  deriving DecidableEq, Repr

/-- What a request outstanding over Reel is (R333): a read for a register of a thread, a write or an atomic, a fence
signal or error store, or a collective segment. -/
inductive RemoteKind where
  | read (thread : Nat) (reg : Nat) (bytes : Nat) (sext : Bool)
  | fill (ring : Nat) (num : Nat) (off : Nat) (bytes : Nat)
  | move (dst : Nat) (bytes : Nat)
  /-- a write, or an atomic that returns nothing -/
  | write (atomic : Bool)
  | atomic (thread : Nat) (reg : Nat) (wide : Bool)
  | fence (op : FenceOp)
  | segment
  deriving DecidableEq, Repr

/-- Where a request for another module stands (R333, R337): on its way; behind an earlier request of its thread to the same window; answered
RETRY, in the replay buffer until it is sent again. -/
inductive Flight where
  | sent | behind | turned
  deriving DecidableEq, Repr

/-- A request sent over Reel and not yet answered, or a signal without a route (R335, R337, R339); the thread of its group that made it, and
the message, kept to be sent again. -/
structure Remote where
  id : Nat
  part : Nat
  q : Nat
  slot : Nat
  who : Option Who
  lane : Nat
  win : WinRef
  off : Nat
  va : Nat
  /-- the port it travels on; none while its route is empty -/
  port : Option Nat
  kind : RemoteKind
  /-- retries of a signal without a route -/
  tries : Nat
  flight : Flight
  msg : Nat
  payload : List Nat
  deriving DecidableEq, Repr

/-- A piece of an unordered reduction that has arrived and waits to be added (R343): sending rank, shard, the physical address of
the shard's bytes and the piece's bytes; the window it came through, and whether that window's entry has been replaced since (R231). -/
structure Segment where
  rank : Nat
  shard : Nat
  pa : Nat
  bytes : List Byte
  window : Nat
  stale : Bool
  deriving DecidableEq, Repr

/-- The bytes that have arrived from a rank in a phase for a shard, through a window (R342). -/
structure SegCount where
  rank : Nat
  allgather : Bool
  shard : Nat
  window : Nat
  bytes : Nat
  deriving DecidableEq, Repr

/-- An entry of an engine's arrival table (R342). -/
structure Arrival where
  bridge : Nat
  group : Nat
  epoch : Nat
  arrived : List SegCount
  waiting : List Segment
  /-- ranks of this module whose member has finished with the key -/
  finished : List Nat
  deriving DecidableEq, Repr

structure Reel where
  nextId : Nat
  remotes : List Remote
  arrivals : List Arrival
  /-- cached entries of the window table, by window ID (R229, R231): the entry's four words -/
  winCache : SMap (List W64)
  /-- wavelengths of each port that are lost; spares cut in are in REL_PORT_STAT -/
  lost : SMap (List Nat)
  /-- spare wavelengths cut in, by port (the configuration record's map, R404) -/
  wlCuts : SMap (List Nat)
  /-- ports trained or found dark since reset (R403) -/
  settled : List Nat
  deriving DecidableEq, Repr

/-! ## The floor, test and pins (15, 18, 20) -/

/-- A direction of a Chassé edge (R350 to R352): groups whose spare wire is in use or has failed, with the failed wire; groups out of use
until an approval, with the wire that waits; of those, groups approved; groups removed; the number of the flit now awaited and its
replays; a retrain under way. Wires from 1,536 up are the spare wires of the groups. -/
structure EdgeDir where
  spared : List (Nat × Nat)
  waiting : List (Nat × Nat)
  approved : List Nat
  removed : List Nat
  expect : Nat
  replays : Nat
  training : Bool
  deriving DecidableEq, Repr

/-- A die site (R347 to R365): the LOOPBACK data register, a run under way, the last BIST pass map, the state it entered
stand-alone test from, whether Minuet powers it for a selection, the stack of a bridge whose IEEE 1500 wrapper is in series. -/
structure Site where
  loopback : W64
  looping : Bool
  passMap : BitVec 16
  before : Nat
  powered : Bool
  wrapper : BitVec 2
  /-- its hardware temperature clamp holds (R385) -/
  hot : Bool
  deriving DecidableEq, Repr

/-- The inputs of the channel schedule in force (R355): active partitions, floor-wide blocks, data wavelengths of the
four banks. -/
structure Schedule where
  active : List Nat
  tiles : List Nat
  floorWide : List Nat
  maps : List Nat
  deriving DecidableEq, Repr

/-- The module's pins and its test access controllers (R363, R426): the boundary register, the instruction registers of the module TAP and
of the selected die's TAP. -/
structure Pins where
  resetN : Bool
  pwrOk : Bool
  brakeN : Bool
  thermAlertN : Bool
  boundary : BitVec 16
  ir : BitVec 8
  dieIr : BitVec 8
  i3cAddr : Option Nat
  deriving DecidableEq, Repr

structure FloorHw where
  /-- by 2 * edge + direction (0 for AB) -/
  edges : SMap EdgeDir
  sites : SMap Site
  schedule : Schedule
  /-- lasers lost or replaced, by bank and laser, and the spares cut in by bank (R357, R404) -/
  laserLost : List (Nat × Nat)
  laserCuts : SMap (List Nat)
  refLost : Bool
  pins : Pins
  /-- sites never to be chosen as a spare again (R407) -/
  retired : List Nat
  /-- sites that the last reset found WITHDRAWN or FAILED, with that STATE, which bring-up shows again (R11, R397) -/
  unfit : SMap Nat
  deriving DecidableEq, Repr

/-! ## Minuet, power and heat (17, 18) -/

/-- A provider log record (R389). -/
structure LogRec where
  seq : Nat
  measure : Nat
  cls : Nat
  site : Nat
  part : Nat
  level : Nat
  code : Nat
  addr : Nat
  detail : List Nat
  lost : Nat
  deriving DecidableEq, Repr

/-- A proposal that waits in Minuet for an entry of CUT_PROP (R406). -/
structure Proposal where
  id : Nat
  kind : Nat
  site : Nat
  unit : Nat
  part : Nat
  reason : Nat
  deriving DecidableEq, Repr

/-- A staged Minuet image (R391, R392). -/
structure Image where
  version : Nat
  security : Nat
  handoff : Nat
  deriving DecidableEq, Repr

/-- An activation under way (R393, R394): responsibilities moved so far, none while the new image boots; the exchange-window slot of
the handoff record. -/
structure Handover where
  moved : Option Nat
  slot : Option Nat
  deriving DecidableEq, Repr

/-- A tile cut-in in progress (R407): logical tile, new site, entry of its proposal; whether the Caller grants the tile no more. -/
structure TileCutin where
  tile : Nat
  site : Nat
  entry : Nat
  stopped : Bool
  deriving DecidableEq, Repr

structure Minuet where
  /-- the core of each role: SERVICE, RAS, MEMORY, LOOPS (R380) -/
  roles : List Nat
  /-- firmware locks held: lock, core (R381) -/
  locks : List (Nat × Nat)
  logSeq : Nat
  logHeld : List LogRec
  logLost : Nat
  /-- slots handed over for the log, and records in the first of them -/
  logSlots : List Nat
  logFill : Nat
  telemSlots : List Nat
  /-- the flags of the exchange-window slots that Minuet has acquired, as it found them (R326) -/
  xwSeen : SMap Nat
  nextProposal : Nat
  proposals : List Proposal
  /-- declined proposals: kind, site, unit, reason (R406) -/
  declined : List (Nat × Nat × Nat × Nat)
  staged : Option Image
  /-- slots of the image being verified -/
  verifying : Option (Nat × Nat)
  handover : Option Handover
  minSecurity : Nat
  /-- cores withdrawn, as the record's Minuet core map keeps them (R382, R404) -/
  lostCores : List Nat
  /-- loops: ms since each tile's divider was last stepped up, ms without an emergency, loop periods missed -/
  raise : SMap Nat
  clearMs : Nat
  /-- supply in a tolerated excursion (R422) -/
  excursion : Bool
  powerCycle : Option PowerCause
  /-- GENERATION of the Capability Table (R414) -/
  generation : Nat
  tileCutins : List TileCutin
  deriving DecidableEq, Repr

/-- The device: everything but the queue of waiting commands. -/
structure Dev where
  mem : Mem
  /-- lines (address div 64) that carry the poison attribute (R185, R200) -/
  poison : List Nat
  /-- registers written, under their keys; an unlisted one holds its reset value -/
  regs : SMap W64
  /-- X fields software has written: their registers' addresses (R11, R292) -/
  written : List Nat
  cores : SMap Core
  /-- range caches of the tiles, oldest first (R223) -/
  rcache : SMap (List Xent)
  walks : List Walk
  queues : SMap Queue
  parts : SMap Part
  coh : Coh
  hbm : Hbm
  tempo : Tempo
  host : HostCx
  reel : Reel
  floor : FloorHw
  minuet : Minuet
  /-- answers, messages and pin edges sent, oldest first -/
  out : List Emission
  /-- the part built: FZ-4856-B (R1, R2) -/
  variantB : Bool
  /-- how many free values have been drawn -/
  fresh : Nat
  /-- an order stamp for dispatch, readiness and running -/
  clock : Nat
  /-- nothing acts until power is cycled (R376) -/
  halted : Bool
  deriving DecidableEq, Repr

/-- The state: the device and the commands waiting, first in first out. -/
structure State where
  pending : List Instr
  dev : Dev
  deriving DecidableEq, Repr

/-- Faults: none. The spec gives every command of the table an effect, so no command stops the block; this type has
no constructor. -/
inductive Fault where
  deriving DecidableEq, Repr

/-- Refusals. -/
inductive Refusal where
  /-- raised only by the arm of an instruction that has no meaning yet; safe: the run stops there -/
  | notModelled (mnemonic : String)
  deriving DecidableEq, Repr

/-! ## Reset -/

/-- A site's FLR_SITE_STAT at reset (R347, R349): the site roles and logical tiles of the configuration record, every
other field 0. The record of the model's module keeps the first twelve sites of each quadrant in service (log 4). -/
def siteStatReset (n : Nat) : Nat :=
  if n < 56 then (if n % 14 < 12 then (12 * (n / 14) + n % 14) * 32 else 1 + 63 * 32)
  else if n < 68 then 2 + 63 * 32
  else 3 + 63 * 32

/-- TMP_BEATS12 at reset (R301): REMAP reads 0. -/
def hostBeatsReset : Nat := regReset .tmpBeats - 2 * 2 ^ 6

/-- The registers whose reset value comes from the configuration record or from the reset itself (R376, R394, R406): the
sites' roles, the spares left, RECORD_GEN 1, the running image 1.0.0 (log 4); SITE of MNT_RESET_CAUSE none. -/
def resetRegs : SMap W64 :=
  let rs := (List.range 69).foldl (fun m n => smapPut m (regKey .flrSiteStat n 0) (BitVec.ofNat 64 (siteStatReset n))) []
  let rs := smapPut rs (regKey .cutStat 0 0) (BitVec.ofNat 64 (0xAA * 32 + 8 * 8192 + 2 ^ 32))
  let rs := smapPut rs (regKey .mntFwStat 0 0) (BitVec.ofNat 64 (0x01000000 * 256))
  let rs := smapPut rs (regKey .tmpBeats 12 0) (BitVec.ofNat 64 hostBeatsReset)
  smapPut rs (regKey .mntResetCause 0 0) (BitVec.ofNat 64 (127 * 64))

/-- The device right after a POWER reset (R362, R397): nothing runs, every partition FREE, every home in NACK mode. -/
def Dev.reset : Dev :=
  { mem := [], poison := [], regs := resetRegs, written := [], cores := [], rcache := [], walks := [], queues := [],
    parts := [],
    coh := { lines := [], tags := [], suspect := [], txns := [], msgs := [], waits := [], reservations := [], nacks := [],
             backoff := [], refused := [], told := [], shc := [] },
    hbm := { remaps := [], corrected := [], bad := [], weak := [], lpRates := [], lpWithdrawn := [], slow := [] },
    tempo := { measures := [], budgets := [], lent := [], lentLines := [], used := [], beats := [], bands := [], scrubs := [], meters := [],
               fractions := [], attempt := [], snapshot := none, sampled := none },
    host := { running := [], entry := [], imsic := [], fzctx := [], failed := [],
              ulk := { expect := 0, acked := 0, replays := 0, owed := [], next := 0, buffer := [], held := [] },
              fwRunning := 0x01000000, fwStaged := none },
    reel := { nextId := 0, remotes := [], arrivals := [], winCache := [], lost := [], wlCuts := [], settled := [] },
    floor := { edges := [], sites := [],
               schedule := { active := [], tiles := [], floorWide := [], maps := [] },
               laserLost := [], laserCuts := [], refLost := false,
               pins := { resetN := true, pwrOk := true, brakeN := true, thermAlertN := true, boundary := 0,
                         ir := 1, dieIr := 1, i3cAddr := none },
               retired := [], unfit := [] },
    minuet := { roles := [0, 1, 2, 3], locks := [], logSeq := 0, logHeld := [], logLost := 0, logSlots := [], logFill := 0,
                telemSlots := [], xwSeen := [], nextProposal := 0, proposals := [], declined := [], staged := none, verifying := none,
                handover := none, minSecurity := 0, lostCores := [], raise := [], clearMs := 0, excursion := false, powerCycle := none,
                generation := 0, tileCutins := [] },
    out := [], variantB := false, fresh := 0, clock := 0, halted := false }

/-- The machine right after reset, no command waiting. -/
def State.reset : State := { pending := [], dev := Dev.reset }

end Sys2Proof.Machine
end

