-- ==== Sys2Proof/Machine/DevOps.lean ====
section
/-! DEFINITION. The device's named operations: registers and their fields, what leaves the block, where a physical address
lies (08 R191 to R198, 19 R410), and lines at the point of coherence (06 R150, 07 R175 to R177, R185, 08 R195, R199, R214). -/

namespace Sys2Proof.Machine

open Sys2Proof

/-! ### Registers -/

/-- A register's word (R7, R11). -/
def Dev.word (d : Dev) (r : Reg) (a b : Nat) : Nat :=
  (smapGet d.regs (regKey r a b) (BitVec.ofNat 64 (regReset r))).toNat

def Dev.setWord (d : Dev) (r : Reg) (a b : Nat) (v : Nat) : Dev :=
  { d with regs := smapPut d.regs (regKey r a b) (BitVec.ofNat 64 v) }

/-- A field of a register; a is the partition of a partition page register, and the instance of a device register. -/
def Dev.get (d : Dev) (f : Fld) (a : Nat := 0) (b : Nat := 0) : Nat := natBitsAt (d.word f.reg a b) f.lo f.w

def Dev.set (d : Dev) (f : Fld) (v : Nat) (a : Nat := 0) (b : Nat := 0) : Dev :=
  d.setWord f.reg a b (natSetBits (d.word f.reg a b) f.lo f.w v)

/-- A counting field that stops at its largest value. -/
def Dev.bump (d : Dev) (f : Fld) (n : Nat) (a : Nat := 0) (b : Nat := 0) : Dev :=
  d.set f (min (2 ^ f.w - 1) (d.get f a b + n)) a b

/-- A counting field that wraps. -/
def Dev.bumpWrap (d : Dev) (f : Fld) (a : Nat := 0) (b : Nat := 0) : Dev :=
  d.set f ((d.get f a b + 1) % 2 ^ f.w) a b

/-- A change of the SERVICE copy of the configuration record (R404), for what each event changes (DEDUCED, log 134). -/
def Dev.recordChange (d : Dev) : Dev := d.bumpWrap fCutStatRecordGen

/-! ### Emissions, order stamps -/

def Dev.emit (d : Dev) (e : Emission) : Dev := { d with out := d.out ++ [e] }

def Dev.tick (d : Dev) : Dev := { d with clock := d.clock + 1 }

/-! ### Parts of the device -/

def Dev.setMinuet (d : Dev) (m : Minuet) : Dev := { d with minuet := m }
def Dev.setHost (d : Dev) (h : HostCx) : Dev := { d with host := h }
def Dev.setReel (d : Dev) (r : Reel) : Dev := { d with reel := r }
def Dev.setFloor (d : Dev) (f : FloorHw) : Dev := { d with floor := f }
def Dev.setTempo (d : Dev) (t : Tempo) : Dev := { d with tempo := t }
def Dev.setCoh (d : Dev) (c : Coh) : Dev := { d with coh := c }
def Dev.setHbm (d : Dev) (h : Hbm) : Dev := { d with hbm := h }
def Dev.setUlk (d : Dev) (u : Ulk) : Dev := d.setHost { d.host with ulk := u }

/-! ### Partitions -/

def partFree : Nat := 0
def partActive : Nat := 1
def partDissolving : Nat := 2
def partReinit : Nat := 3

def Dev.partState (d : Dev) (p : Nat) : Nat := d.get fPrtStatState p

def Part.initial : Part :=
  { cycles := 0, pendFaults := [], waitFaults := [], signals := [], errors := [], qop := none,
    reinit := none, fqCtl := 0 }

def Dev.part (d : Dev) (p : Nat) : Part := smapGet d.parts p Part.initial
def Dev.setPart (d : Dev) (p : Nat) (x : Part) : Dev := { d with parts := smapPut d.parts p x }

/-- Bits set in a word below n, ascending. -/
def bitsBelow (n v : Nat) : List Nat := (List.range n).filter fun i => v.testBit i

/-- The partition's tiles by device logical tile ID, ascending: logical tile i is the i-th (R287). -/
def Dev.tiles (d : Dev) (p : Nat) : List Nat := bitsBelow 48 (d.get fPrtTilesTiles p)

/-- The partition that holds a tile: active, dissolving or re-initialising. -/
def Dev.tilePart (d : Dev) (t : Nat) : Option Nat :=
  (List.range 48).find? fun p => d.partState p ≠ partFree && (d.get fPrtTilesTiles p).testBit t

/-- Walk-through service of a partition (R403): LEVEL of PRT_SERVICE is 0. -/
def Dev.walkThrough (d : Dev) (p : Nat) : Bool := d.get fPrtServiceLevel p = 0

/-- The partition's cycle counter (R327). -/
def Dev.cycleCounter (d : Dev) (p : Nat) : W64 := (d.part p).cycles

/-! ### The physical address map -/

def gib : Nat := 1073741824
def hbmEnd : Nat := 0x18000000000
def lpBase : Nat := 0x20000000000
def lpEnd : Nat := 0x40000000000

def isHbm (pa : Nat) : Bool := pa < hbmEnd
def isLp (pa : Nat) : Bool := lpBase ≤ pa && pa < lpEnd

/-- In the HBM region or the LPDDR5X window: what a LINEAR or GRANULAR entry may map (R411). -/
def isMemory (pa : Nat) : Bool := isHbm pa || isLp pa

/-- Populated LPDDR5X bytes (R1). -/
def Dev.lpPopulated (d : Dev) : Nat := if d.variantB then 2048 * gib else 1024 * gib

/-- Usable LPDDR5X bytes (R2, R193, R413): the poison bitmap's share and the units withdrawn in the configuration record are left out
(DESIGN CHOICE, log 131: no command withdraws one). -/
def Dev.lpUsable (d : Dev) : Nat := d.lpPopulated - d.lpPopulated / 512 - d.hbm.lpWithdrawn.length * gib

/-- Is block j floor-wide (R196)? -/
def Dev.floorWide (d : Dev) (j : Nat) : Bool :=
  if j < 64 then (d.get fHbmFwMapBlock 0).testBit j else j < 127 && (d.get fHbmFwMapBlock 1).testBit (j - 64)

/-- The stack and stack offset of an HBM address (R194, R196). -/
def Dev.hbmPlace (d : Dev) (a : Nat) : Nat × Nat :=
  let q := a / (384 * gib)
  let o := a % (384 * gib)
  let u := o / gib
  let i := o / 256
  let j := u / 3
  if d.floorWide j then
    let g := q * 12582912 + (u - 3 * j) * 4194304 + (o % gib) / 256
    (6 * (g % 4) + g / 4 % 6, (j * 2097152 + g / 24) * 256 + o % 256)
  else (6 * q + i % 6, (i / 6) * 256 + o % 256)

/-- The bridge that serves a stack (R191). -/
def stackBridge (s : Nat) : Nat := 3 * (s / 6) + s % 6 / 2

/-- The home of a line of memory (R166): a bridge, or 12 for the host shared cache. -/
def Dev.home (d : Dev) (pa : Nat) : Nat := if isHbm pa then stackBridge (d.hbmPlace pa).1 else 12

/-- Backed memory (R195, R198). -/
def Dev.backed (d : Dev) (pa : Nat) : Bool :=
  if isHbm pa then pa % (384 * gib) < 765 * (gib / 2)
  else isLp pa && pa - lpBase < d.lpPopulated - d.lpPopulated / 512

/-- The LPDDR5X channel of an address and its offset in the channel (R198). -/
def lpPlace (pa : Nat) : Nat × Nat :=
  let p := pa - lpBase
  (Nat.xor (Nat.xor (natBitsAt p 8 4) (natBitsAt p 12 4)) (natBitsAt p 16 4), p / 4096 * 256 + p % 256)

/-- The bridge that serves an LPDDR5X line for a requester of quadrant q (R170). -/
def lpBridge (q pa : Nat) : Nat := 3 * q + (pa - lpBase) / 256 % 3

/-! ### Lines -/

/-- Line n of memory. -/
def Dev.memLine (d : Dev) (n : Nat) : Line := BitVec.ofNat 512 (leNat (memRead d.mem (64 * n) 64))

def Dev.setMemLine (d : Dev) (n : Nat) (x : Line) : Dev := { d with mem := memWrite d.mem (64 * n) (leBytes 64 x.toNat) }

/-- The bytes a mask selects, as a mask of bits. -/
def byteMaskUpTo : Nat → Mask → Line
  | 0, _ => 0
  | n + 1, m => byteMaskUpTo n m ||| (if m.getLsbD n then 0xFF#512 <<< (8 * n) else 0)

def byteMask (m : Mask) : Line := byteMaskUpTo 64 m

/-- Bytes of a line replaced where a mask selects them (R176). -/
def mergeLine (old : Line) (m : Mask) (new : Line) : Line :=
  (old &&& ~~~(byteMask m)) ||| (new &&& byteMask m)

/-- Adding to, and removing from, an ascending list of numbers. -/
def insertNat : List Nat → Nat → List Nat
  | [], x => [x]
  | y :: t, x => if x < y then x :: y :: t else if x = y then y :: t else y :: insertNat t x

/-- The host complex's summary bit of 64 KiB of LPDDR5X (R200): set while a bit of its part of the poison bitmap is set. -/
def Dev.summary (d : Dev) (k : Nat) : Bool := d.poison.any fun n => isLp (64 * n) && n / 1024 = k

/-- Is a line stored with the poison attribute (R185, R200)? The bitmap is read only where the summary bit is set. -/
def Dev.isPoisoned (d : Dev) (n : Nat) : Bool :=
  (!isLp (64 * n) || d.summary (n / 1024)) && d.poison.contains n

/-- The poison attribute of a line in memory (R185, R200): a poisoned LPDDR5X line is written with all bytes 0. -/
def Dev.setPoison (d : Dev) (n : Nat) (on : Bool) : Dev :=
  if on then
    let d := { d with poison := insertNat d.poison n }
    if isLp (64 * n) then
      (d.setMemLine n 0).set fLpmRasStatPoisoned
        (min 0xFFFF (d.poison.countP fun x => isLp (64 * x)))
    else d
  else
    let d := { d with poison := d.poison.filter (· ≠ n) }
    if isLp (64 * n) then d.set fLpmRasStatPoisoned (min 0xFFFF (d.poison.countP fun x => isLp (64 * x))) else d

def ALine.none : ALine :=
  { st := .i, data := 0, poison := false, hold := false, used := false, snoop := .none, req := .none, leaving := false, rq := Rq.provider }

def Dev.aline (d : Dev) (a n : Nat) : ALine := smapGet d.coh.lines (16 * n + a) ALine.none
def Dev.setAline (d : Dev) (a n : Nat) (x : ALine) : Dev :=
  { d with coh := { d.coh with lines := smapPut d.coh.lines (16 * n + a) x } }

/-- A home's duplicate tag (R171). -/
def Dev.tag (d : Dev) (a n : Nat) : LState := smapGet d.coh.tags (16 * n + a) .i
def Dev.setTag (d : Dev) (a n : Nat) (x : LState) : Dev :=
  { d with coh := { d.coh with tags := if x = .i then smapDel d.coh.tags (16 * n + a) else smapPut d.coh.tags (16 * n + a) x } }

/-- Dropping agent a's copy of a line, its data written to the home if it held it in M (R173). -/
def Dev.dropCopy (d : Dev) (a n : Nat) : Dev :=
  let x := d.aline a n
  if x.st = .i then d
  else
    let d := if x.st = .m then (d.setMemLine n x.data).setPoison n x.poison else d
    (d.setAline a n { x with st := .i, hold := false }).setTag a n .i

/-- Bringing agent a's copy to at most S, its data written to the home if it held it in M (R173). -/
def Dev.shareCopy (d : Dev) (a n : Nat) : Dev :=
  let x := d.aline a n
  if x.st = .e ∨ x.st = .m then
    let d := if x.st = .m then (d.setMemLine n x.data).setPoison n x.poison else d
    (d.setAline a n { x with st := .s, hold := false }).setTag a n .s
  else d

/-- Every caching agent but one (14 is none). -/
def agentsBut (a : Nat) : List Nat := (List.range 14).filter (· ≠ a)

/-- Is a caching agent declared dead (R183)? -/
def Dev.dead (d : Dev) (a : Nat) : Bool := (d.get fShcAgentDeadDead).testBit a

/-- Does home h know that an agent is dead (R184)? -/
def Dev.knowsDead (d : Dev) (h a : Nat) : Bool := d.dead a && d.coh.told.contains (h, a)

/-- Is a line held by transactions or messages of the coherence protocol still under way (R175)? -/
def Dev.lineBusy (d : Dev) (n : Nat) : Bool :=
  d.coh.txns.any (fun t => t.line = n)
    || d.coh.msgs.any (fun m => match m with
      | .snp l _ _ => l = n
      | .resp l _ _ _ _ => l = n
      | .toHome l _ _ _ => l = n
      | .grant l _ _ _ _ _ => l = n
      | .toRequester _ _ _ _ => false
      | .redirect _ _ _ _ => false)

end Sys2Proof.Machine
end

