-- ==== Sys2Proof/Machine/Edges.lean ====
section
/-! DEFINITION. The floor's sites and Chassé edges (15 R347 to R352), and the Promenade ports that are lit (R353, R357). -/

namespace Sys2Proof.Machine

open Sys2Proof

/-! ### Spare kinds (R405) -/

def kindLane : Nat := 0
def kindColumn : Nat := 1
def kindWire : Nat := 2
def kindLaser : Nat := 3
def kindReel : Nat := 4
def kindHost : Nat := 5
def kindTile : Nat := 6

def noSite : Nat := 127
def noPart : Nat := 63

/-! ### Sites (R347, R349) -/

def siteOff : Nat := 0
def siteReset : Nat := 1
def siteRunning : Nat := 2
def siteStandalone : Nat := 3
def siteWithdrawn : Nat := 4
def siteFailed : Nat := 5

def Site.initial : Site :=
  { loopback := 0, looping := false, passMap := 0, before := 0, powered := false, wrapper := 0, hot := false }

def Dev.site (d : Dev) (n : Nat) : Site := smapGet d.floor.sites n Site.initial
def Dev.setSite (d : Dev) (n : Nat) (x : Site) : Dev := d.setFloor { d.floor with sites := smapPut d.floor.sites n x }

def Dev.siteState (d : Dev) (n : Nat) : Nat := d.get fFlrSiteStatState n

/-! ### Borders (R348) -/

/-- The two sites an edge joins, the lower first. -/
def edgeEnds (e : Nat) : Nat × Nat :=
  let q := e / 30
  let j := e % 30
  if j < 14 then (14 * q + j, 56 + 3 * q + (if j < 5 then 0 else if j < 9 then 1 else 2))
  else if j < 27 then (14 * q + j - 14, 14 * q + j - 13)
  else if j = 27 then (56 + 3 * q, 57 + 3 * q)
  else if j = 28 then (57 + 3 * q, 58 + 3 * q)
  else (57 + 3 * q, 68)

/-- The edges of a site, ascending. -/
def siteEdges (n : Nat) : List Nat := (List.range 120).filter fun e => (edgeEnds e).1 = n || (edgeEnds e).2 = n

/-- The Tempo instance of the bridge that a site borders, or of its own die (R348): in its beats the site's ports are calibrated (R358) and
its trims loaded (R407). -/
def calibrator (site : Nat) : Nat :=
  if site < 56 then 3 * (site / 14) + (if site % 14 < 5 then 0 else if site % 14 < 9 then 1 else 2) else site - 56

/-! ### Edges (R350 to R352) -/

def EdgeDir.good : EdgeDir :=
  { spared := [], waiting := [], approved := [], removed := [], expect := 0, replays := 0, training := false }

/-- Groups in use: a group whose failed wire waits for approval is out of use. -/
def EdgeDir.groups (x : EdgeDir) : Nat := 48 - x.waiting.length - x.removed.length

/-- Spare wires cut in: a spare that failed itself is none. -/
def EdgeDir.cutins (x : EdgeDir) : Nat := x.spared.countP fun w => w.2 < 1536

def Dev.edgeDir (d : Dev) (e : Nat) (ba : Bool) : EdgeDir := smapGet d.floor.edges (2 * e + (if ba then 1 else 0)) EdgeDir.good
def Dev.setEdgeDir (d : Dev) (e : Nat) (ba : Bool) (x : EdgeDir) : Dev :=
  d.setFloor { d.floor with edges := smapPut d.floor.edges (2 * e + (if ba then 1 else 0)) x }

def edgeDown : Nat := 0
def edgeTraining : Nat := 1
def edgeUp : Nat := 2

/-- A direction begins a retrain (R351). -/
def Dev.edgeRetrain (d : Dev) (e : Nat) (ba : Bool) : Dev :=
  if d.get fFlrChsStatState e = edgeDown then d
  else (d.setEdgeDir e ba { d.edgeDir e ba with training := true }).set fFlrChsStatState edgeTraining e

/-- GROUPS, SPARES and CUTIN_PENDING of an edge. -/
def Dev.showEdge (d : Dev) (e : Nat) : Dev :=
  let a := d.edgeDir e false
  let b := d.edgeDir e true
  let waits (x : EdgeDir) : Bool := x.waiting.any fun w => !x.approved.contains w.1
  let d := (d.set fFlrChsStatGroupsAb a.groups e).set fFlrChsStatGroupsBa b.groups e
  let d := (d.set fFlrChsStatSparesAb a.cutins e).set fFlrChsStatSparesBa b.cutins e
  d.set fFlrChsStatCutinPending (if waits a || waits b then 1 else 0) e

/-- May an edge be UP: both directions with 40 groups (R352), both dies running? -/
def Dev.edgeFit (d : Dev) (e : Nat) : Bool :=
  40 ≤ (d.edgeDir e false).groups && 40 ≤ (d.edgeDir e true).groups
    && d.siteState (edgeEnds e).1 = siteRunning && d.siteState (edgeEnds e).2 = siteRunning

def EdgeDir.rest (x : EdgeDir) : EdgeDir := { x with replays := 0, training := false }

/-- Both directions at rest, the edge UP if it may be. -/
def Dev.edgeJoin (d : Dev) (e : Nat) : Dev :=
  let d := (d.setEdgeDir e false (d.edgeDir e false).rest).setEdgeDir e true (d.edgeDir e true).rest
  d.showEdge e |>.set fFlrChsStatState (if d.edgeFit e then edgeUp else edgeDown) e

/-- An edge goes DOWN: what was under way on it is lost, its flits are numbered anew. -/
def Dev.edgeDrop (d : Dev) (e : Nat) : Dev :=
  let fresh (x : EdgeDir) : EdgeDir := { x.rest with expect := 0 }
  let d := (d.setEdgeDir e false (fresh (d.edgeDir e false))).setEdgeDir e true (fresh (d.edgeDir e true))
  d.set fFlrChsStatState edgeDown e

/-! ### Promenade ports (R353, R356, R357) -/

/-- Has a laser bank 6 data wavelengths? -/
def Dev.bankFit (d : Dev) (q : Nat) : Bool := 6 ≤ (bitsBelow 10 (d.get fFlrLaserStatDataMap q)).length

/-- The ports of a site that its bank lights: 2 of a tile site, 8 of a bridge, 16 of the host complex. -/
def Dev.litPorts (d : Dev) (n : Nat) : Nat :=
  if n < 56 then (if d.bankFit (n / 14) then 2 else 0)
  else if n < 68 then (if d.bankFit ((n - 56) / 3) then 8 else 0)
  else (if d.bankFit 0 then 8 else 0) + (if d.bankFit 2 then 8 else 0)

/-- PROM_UP of a site. -/
def Dev.lightSite (d : Dev) (n : Nat) : Dev :=
  d.set fFlrSiteStatPromUp (if d.get fMntBootStatPromUp = 1 && d.siteState n = siteRunning then d.litPorts n else 0) n

def Dev.lightSites (d : Dev) : Dev := (List.range 69).foldl Dev.lightSite d

/-! ### A die that leaves, or returns (R362) -/

/-- A die's edges and ports go DOWN, its PLLs are no longer locked. -/
def Dev.siteDown (d : Dev) (n st : Nat) : Dev :=
  let d := (siteEdges n).foldl Dev.edgeDrop d
  ((d.set fFlrSiteStatState st n).set fFlrSiteStatPromUp 0 n).set fFlrSiteStatPllLock 0 n

/-- A die runs: PLLs locked, edges and ports trained. -/
def Dev.siteUp (d : Dev) (n : Nat) : Dev :=
  let d := (d.set fFlrSiteStatState siteRunning n).set fFlrSiteStatPllLock 1 n
  ((siteEdges n).foldl Dev.edgeJoin d).lightSite n

end Sys2Proof.Machine
end

