-- ==== Sys2Proof/Config.lean ====
section
/-! DEFINITION. What the spec leaves open: constants without a body. Nothing can evaluate them, so a claim holds whatever
their values are. The step reads the free values at a counter of the state that it then advances (log 7). -/

namespace Sys2Proof

/-- The n-th value that the spec leaves unspecified, drawn in the order of a run. -/
opaque Config.freeWord : Nat → W64

/-- The n-th contents of memory that the spec leaves unspecified: cells, of which the later of two at one address counts, and
lines that carry the poison attribute. -/
opaque Config.freeCells : Nat → List Host.Cell
opaque Config.freeLines : Nat → List Nat

end Sys2Proof
end

