-- ==== Sys2Proof/Machine/Fp.lean ====
section
/-! DEFINITION. Number formats, rounding and special values (05 R120 to R127), on exact values: a finite value is a
sign, a natural significand and a binary exponent, and a result is rounded once. -/

namespace Sys2Proof.Machine

open Sys2Proof

/-- An exact value: NaN, an infinity, or (-1)^neg * m * 2^e. -/
inductive Fp where
  | nan
  | inf (neg : Bool)
  | fin (neg : Bool) (m : Nat) (e : Int)
  deriving DecidableEq, Repr

/-- Which codes of a format are not finite (R120): infinities and NaNs as IEEE 754 has them; E4M3's single NaN pair;
none at all. -/
inductive FpKind where
  | ieee
  | e4m3
  | finite
  deriving DecidableEq, Repr

/-- A floating-point format (R120): exponent bits, mantissa bits, bias, kind. -/
structure FpFmt where
  eb : Nat
  mb : Nat
  bias : Nat
  kind : FpKind
  deriving DecidableEq, Repr

def fpF32 : FpFmt := { eb := 8, mb := 23, bias := 127, kind := .ieee }
def fpF64 : FpFmt := { eb := 11, mb := 52, bias := 1023, kind := .ieee }
def fpBf16 : FpFmt := { eb := 8, mb := 7, bias := 127, kind := .ieee }
def fpF16 : FpFmt := { eb := 5, mb := 10, bias := 15, kind := .ieee }
def fpE4m3 : FpFmt := { eb := 4, mb := 3, bias := 7, kind := .e4m3 }
def fpE5m2 : FpFmt := { eb := 5, mb := 2, bias := 15, kind := .ieee }
def fpE3m2 : FpFmt := { eb := 3, mb := 2, bias := 3, kind := .finite }
def fpE2m3 : FpFmt := { eb := 2, mb := 3, bias := 1, kind := .finite }
def fpE2m1 : FpFmt := { eb := 2, mb := 1, bias := 1, kind := .finite }

/-- The number of bits of a format. -/
def FpFmt.width (f : FpFmt) : Nat := 1 + f.eb + f.mb

/-- The exponent of the format's smallest quantum: a subnormal is n * 2^emin. -/
def FpFmt.emin (f : FpFmt) : Int := 1 - (f.bias : Int) - (f.mb : Int)

/-- The exponent field of the largest finite value (R120). -/
def FpFmt.topExp (f : FpFmt) : Nat :=
  match f.kind with
  | .ieee => 2 ^ f.eb - 2
  | .e4m3 => 2 ^ f.eb - 1
  | .finite => 2 ^ f.eb - 1

/-- The mantissa field of the largest finite value (R120): E4M3 gives its last code to NaN. -/
def FpFmt.topMan (f : FpFmt) : Nat :=
  match f.kind with
  | .ieee => 2 ^ f.mb - 1
  | .e4m3 => 2 ^ f.mb - 2
  | .finite => 2 ^ f.mb - 1

/-- The largest finite value's bits without the sign (R120). -/
def FpFmt.maxBits (f : FpFmt) : Nat := f.topExp * 2 ^ f.mb + f.topMan

/-- The canonical NaN (R125). -/
def FpFmt.nanBits (f : FpFmt) : Nat :=
  match f.kind with
  | .ieee => (2 ^ f.eb - 1) * 2 ^ f.mb + 2 ^ (f.mb - 1)
  | .e4m3 => 2 ^ (f.eb + f.mb) - 1
  | .finite => f.maxBits

/-- The infinity's bits without the sign, in a format that has one. -/
def FpFmt.infBits (f : FpFmt) : Nat := (2 ^ f.eb - 1) * 2 ^ f.mb

/-- The sign bit of a format. -/
def FpFmt.signBit (f : FpFmt) : Nat := 2 ^ (f.eb + f.mb)

/-- The value a code stands for (R120). -/
def Fp.decode (f : FpFmt) (bits : Nat) : Fp :=
  let neg := bits / f.signBit % 2 == 1
  let e := bits / 2 ^ f.mb % 2 ^ f.eb
  let m := bits % 2 ^ f.mb
  if f.kind = .ieee ∧ e = 2 ^ f.eb - 1 then (if m = 0 then .inf neg else .nan)
  else if f.kind = .e4m3 ∧ e = 2 ^ f.eb - 1 ∧ m = 2 ^ f.mb - 1 then .nan
  else if e = 0 then .fin neg m f.emin
  else .fin neg (2 ^ f.mb + m) (f.emin + (e : Int) - 1)

/-- The number of bits of n: 0 for 0. -/
def natBits (n : Nat) : Nat := if n = 0 then 0 else Nat.log2 n + 1

/-- A right shift by k rounded to nearest-even, with a further part above 0 and below one unit if sticky. -/
def shiftRne (m k : Nat) (sticky : Bool) : Nat :=
  let q := m >>> k
  let r := m % 2 ^ k
  let half := if k = 0 then 0 else 2 ^ (k - 1)
  if k = 0 then q
  else if r > half ∨ (r = half ∧ sticky) then q + 1
  else if r = half then (if q % 2 = 1 then q + 1 else q)
  else q

/-- A rounding's result (R124): the bits, and whether it saturated. -/
structure FpRes where
  bits : Nat
  sat : Bool
  deriving DecidableEq, Repr

/-- The bits of a signed magnitude. -/
def FpFmt.sign (f : FpFmt) (neg : Bool) (bits : Nat) : Nat := if neg then f.signBit + bits else bits

/-- The code of significand n at quantum exponent q, saturated above the largest finite value (R124). -/
def FpFmt.pack (f : FpFmt) (neg : Bool) (n : Nat) (q : Int) : FpRes :=
  let body : Nat :=
    if n < 2 ^ f.mb then n
    else if n = 2 ^ (f.mb + 1) then ((q - f.emin).toNat + 2) * 2 ^ f.mb
    else ((q - f.emin).toNat + 1) * 2 ^ f.mb + (n - 2 ^ f.mb)
  if body > f.maxBits then { bits := f.sign neg f.maxBits, sat := true }
  else { bits := f.sign neg body, sat := false }

/-- One rounding to nearest-even of (-1)^neg * (m + t) * 2^e, with t strictly between 0 and 1 if sticky and 0
otherwise (R123, R124). Where sticky is set m is given with more bits than the format keeps. -/
def Fp.roundParts (f : FpFmt) (neg : Bool) (m : Nat) (e : Int) (sticky : Bool) : FpRes :=
  if m = 0 then { bits := f.sign neg 0, sat := false }
  else
    let q := max f.emin (e + (natBits m : Int) - ((f.mb : Int) + 1))
    if q ≤ e then f.pack neg (m * 2 ^ (e - q).toNat) q
    else f.pack neg (shiftRne m (q - e).toNat sticky) q

/-- Rounding an exact value to a format (R123 to R125, R127): infinities stay, or saturate where the format has
none; NaN becomes the canonical NaN. -/
def Fp.round (f : FpFmt) : Fp → FpRes
  | .nan => { bits := f.nanBits, sat := false }
  | .inf neg =>
    match f.kind with
    | .ieee => { bits := f.sign neg f.infBits, sat := false }
    | _ => { bits := f.sign neg f.maxBits, sat := true }
  | .fin neg m e => Fp.roundParts f neg m e false

/-- Is the value a NaN? -/
def Fp.isNan : Fp → Bool
  | .nan => true
  | _ => false

/-- Is the value an infinity or a NaN? -/
def Fp.nonFinite : Fp → Bool
  | .fin _ _ _ => false
  | _ => true

/-- Is the value +0 or -0? -/
def Fp.isZero : Fp → Bool
  | .fin _ 0 _ => true
  | _ => false

/-- The sign of a value. -/
def Fp.negSign : Fp → Bool
  | .nan => false
  | .inf n => n
  | .fin n _ _ => n

/-- A finite value's signed significand at exponent e0, which is at most its own. -/
def signedAt (neg : Bool) (m : Nat) (e e0 : Int) : Int :=
  let v : Int := ((m * 2 ^ (e - e0).toNat : Nat) : Int)
  if neg then -v else v

/-- Negation. -/
def Fp.negate : Fp → Fp
  | .nan => .nan
  | .inf n => .inf (!n)
  | .fin n m e => .fin (!n) m e

/-- The exact sum (IEEE 754): opposite infinities give NaN, an exact zero sum is +0 unless both are -0. -/
def Fp.add : Fp → Fp → Fp
  | .nan, _ => .nan
  | _, .nan => .nan
  | .inf a, .inf b => if a == b then .inf a else .nan
  | .inf a, _ => .inf a
  | _, .inf b => .inf b
  | .fin na ma ea, .fin nb mb eb =>
    let e := min ea eb
    let s := signedAt na ma ea e + signedAt nb mb eb e
    if s = 0 then .fin (na && nb) 0 e
    else .fin (decide (s < 0)) s.natAbs e

/-- The exact product. -/
def Fp.mul : Fp → Fp → Fp
  | .nan, _ => .nan
  | _, .nan => .nan
  | .inf a, .inf b => .inf (a ^^ b)
  | .inf a, .fin b m _ => if m = 0 then .nan else .inf (a ^^ b)
  | .fin a m _, .inf b => if m = 0 then .nan else .inf (a ^^ b)
  | .fin a m e, .fin b m' e' => .fin (a ^^ b) (m * m') (e + e')

/-- The rounded quotient (R67, R124): x / 0 is an exact infinity, 0 / 0 and inf / inf NaN. -/
def Fp.divRound (f : FpFmt) : Fp → Fp → FpRes
  | .nan, _ => Fp.round f .nan
  | _, .nan => Fp.round f .nan
  | .inf _, .inf _ => Fp.round f .nan
  | .inf a, .fin b _ _ => Fp.round f (.inf (a ^^ b))
  | .fin a _ _, .inf b => Fp.round f (.fin (a ^^ b) 0 0)
  | .fin a m e, .fin b m' e' =>
    if m' = 0 then (if m = 0 then Fp.round f .nan else Fp.round f (.inf (a ^^ b)))
    else if m = 0 then Fp.round f (.fin (a ^^ b) 0 0)
    else
      let k := f.mb + 4 + natBits m'
      let n := m * 2 ^ k
      Fp.roundParts f (a ^^ b) (n / m') (e - e' - (k : Int)) (n % m' != 0)

/-- Newton's descent to the integer square root, from a start that is at least the root. -/
def isqrtFuel : Nat → Nat → Nat → Nat
  | 0, _, x => x
  | k + 1, n, x =>
    let y := (x + n / x) / 2
    if y < x then isqrtFuel k n y else x

/-- The integer square root: the largest r with r * r at most n. -/
def isqrt (n : Nat) : Nat :=
  if n = 0 then 0 else isqrtFuel (natBits n + 2) n (2 ^ ((natBits n + 1) / 2))

/-- The rounded square root (R67): -0 gives -0, a value below 0 gives NaN. -/
def Fp.sqrtRound (f : FpFmt) : Fp → FpRes
  | .nan => Fp.round f .nan
  | .inf neg => if neg then Fp.round f .nan else Fp.round f (.inf false)
  | .fin neg m e =>
    if m = 0 then Fp.round f (.fin neg 0 e)
    else if neg then Fp.round f .nan
    else
      let k := 2 * (f.mb + 4)
      let k := if (e - (k : Int)) % 2 = 0 then k else k + 1
      let n := m * 2 ^ k
      let r := isqrt n
      Fp.roundParts f false r ((e - (k : Int)) / 2) (r * r != n)

/-- The rounded reciprocal square root (R67, R124): of a zero the infinity of its sign. DEDUCED: the sign for -0. -/
def Fp.rsqrtRound (f : FpFmt) : Fp → FpRes
  | .nan => Fp.round f .nan
  | .inf neg => if neg then Fp.round f .nan else Fp.round f (.fin false 0 0)
  | .fin neg m e =>
    if m = 0 then Fp.round f (.inf neg)
    else if neg then Fp.round f .nan
    else
      -- an odd exponent leaves a factor of 2 under the root
      let k := natBits m + f.mb + 4
      let odd := if e % 2 = 0 then 0 else 1
      let n := 2 ^ (2 * k + odd)
      let r := isqrt (n / m)
      Fp.roundParts f false r (-((e + (odd : Int)) / 2) - (k : Int)) (r * r * m != n)

/-- Working precision of EXP2 and LOG2 in bits. DEDUCED: no F32 operand's result lies so close to a rounding boundary
that this precision would not decide it. -/
def fpWork : Nat := 320

/-- The product of 2^(2^-j) over the bits j of a fraction of n bits, each factor the square root of the one before it:
root is 2^(2^-j) and acc the product so far, both scaled by 2^fpWork. -/
def exp2Prod : Nat → Nat → Nat → Nat → Nat
  | 0, _, _, acc => acc
  | k + 1, frac, root, acc =>
    let root := isqrt (root * 2 ^ fpWork)
    let acc := if frac / 2 ^ k % 2 = 1 then acc * root / 2 ^ fpWork else acc
    exp2Prod k frac root acc

/-- 2^x rounded (R67): exact where x is an integer; results above the range saturate, below it round to +0. -/
def Fp.exp2Round (f : FpFmt) : Fp → FpRes
  | .nan => Fp.round f .nan
  | .inf neg => if neg then Fp.round f (.fin false 0 0) else Fp.round f (.inf false)
  | .fin neg m e =>
    if m = 0 then Fp.round f (.fin false 1 0)
    else if e ≥ 0 then
      -- an integer, past every range once it has more than 20 bits
      if natBits m + e.toNat > 20 then
        (if neg then Fp.round f (.fin false 0 0) else Fp.round f (.fin false 1 1048576))
      else
        let n : Int := ((m * 2 ^ e.toNat : Nat) : Int)
        Fp.round f (.fin false 1 (if neg then -n else n))
    else
      let k := (-e).toNat
      let whole := m / 2 ^ k
      let frac := m % 2 ^ k
      if whole > 2 ^ 20 then
        (if neg then Fp.round f (.fin false 0 0) else Fp.round f (.fin false 1 1048576))
      else if frac = 0 then Fp.round f (.fin false 1 (if neg then -(whole : Int) else (whole : Int)))
      else
        -- x = i + g / 2^k with 0 < g < 2^k
        let i : Int := if neg then -(whole : Int) - 1 else (whole : Int)
        let g := if neg then 2 ^ k - frac else frac
        -- below half the smallest subnormal every result is +0
        if i < f.emin - 1 then Fp.round f (.fin false 0 0)
        else Fp.roundParts f false (exp2Prod k g (2 ^ (fpWork + 1)) (2 ^ fpWork)) (i - (fpWork : Int)) true

/-- n binary digits of log2 of y / 2^fpWork, which is at least 1 and below 2, by repeated squaring. -/
def log2Digits : Nat → Nat → Nat → Nat
  | 0, _, acc => acc
  | k + 1, y, acc =>
    let y2 := y * y / 2 ^ fpWork
    if y2 ≥ 2 ^ (fpWork + 1) then log2Digits k (y2 / 2) (2 * acc + 1) else log2Digits k y2 (2 * acc)

/-- log2 x rounded (R67, R124): exact where x is a power of two, -inf at a zero, NaN below 0. -/
def Fp.log2Round (f : FpFmt) : Fp → FpRes
  | .nan => Fp.round f .nan
  | .inf neg => if neg then Fp.round f .nan else Fp.round f (.inf false)
  | .fin neg m e =>
    if m = 0 then Fp.round f (.inf true)
    else if neg then Fp.round f .nan
    else
      let b := natBits m
      let ex : Int := e + (b : Int) - 1
      if m = 2 ^ (b - 1) then Fp.round f (.fin (decide (ex < 0)) ex.natAbs 0)
      else
        let y := m * 2 ^ fpWork / 2 ^ (b - 1)
        let digits := 128
        let v : Int := ex * 2 ^ digits + (log2Digits digits y 0 : Int)
        -- the true value is v plus a part of one unit
        if v < 0 then Fp.roundParts f true (v.natAbs - 1) (-(digits : Int)) true
        else Fp.roundParts f false v.natAbs (-(digits : Int)) true

/-- Is a below b? -0 counts as below +0 where zeros are ordered (R126); NaNs are not asked. -/
def Fp.lt (zeros : Bool) (a b : Fp) : Bool :=
  match a, b with
  | .nan, _ => false
  | _, .nan => false
  | .inf na, .inf nb => na && !nb
  | .inf na, _ => na
  | _, .inf nb => !nb
  | .fin na ma ea, .fin nb mb eb =>
    let e := min ea eb
    let x := signedAt na ma ea e
    let y := signedAt nb mb eb e
    if x = 0 ∧ y = 0 then zeros && na && !nb else decide (x < y)

/-- Equality of values, with the two zeros equal and NaN equal to nothing. -/
def Fp.eqv (a b : Fp) : Bool :=
  !a.isNan && !b.isNan && !Fp.lt false a b && !Fp.lt false b a

/-- MIN and MAX on bits (R126): the one operand that is no NaN, or the canonical NaN, or the smaller or larger with
-0 below +0. -/
def FpFmt.minMax (f : FpFmt) (isMax : Bool) (x y : Nat) : Nat :=
  let a := Fp.decode f x
  let b := Fp.decode f y
  if a.isNan && b.isNan then f.nanBits
  else if a.isNan then y
  else if b.isNan then x
  else if isMax then (if Fp.lt true a b then y else x)
  else (if Fp.lt true b a then y else x)

/-- The nearest integer to a finite value, ties to even (R69). -/
def Fp.toInt (neg : Bool) (m : Nat) (e : Int) : Int :=
  let n := if e ≥ 0 then m * 2 ^ e.toNat else shiftRne m (-e).toNat false
  if neg then -(n : Int) else (n : Int)

end Sys2Proof.Machine
end

