-- ==== Sys2Proof/Machine/Poc.lean ====
section
/-! DEFINITION. The provider log and interrupts (13 R316, R326, 17 R389, R390), bandwidth tokens (12 R303 to R307), and reads, writes and atomics
at the point of coherence (06 R150, 07 R170, R175 to R177, R185, 08 R195 to R204, R214, R215). -/

namespace Sys2Proof.Machine

open Sys2Proof

/-! ### Free values -/

/-- The next value that the spec leaves open (log 7). -/
def Dev.draw (d : Dev) : W64 × Dev := (Config.freeWord d.fresh, { d with fresh := d.fresh + 1 })

/-- n bytes that the spec leaves open. -/
def Dev.drawBytes : Nat → Dev → List Byte × Dev
  | 0, d => ([], d)
  | n + 1, d =>
    let (x, d) := d.draw
    let (t, d) := Dev.drawBytes n d
    (x.setWidth 8 :: t, d)

/-! ### Memory without side effects -/

/-- Agents 0 to 13. -/
def allAgents : List Nat := List.range 14

/-- The write of a queued transaction of the Caller or Minuet (R175). -/
def HomeReq.poked : HomeReq → Option (Mask × Line)
  | .poke _ m x => some (m, x)
  | _ => none

/-- Writes of the Caller and Minuet to a line that wait for their turn at its home or at a bridge, in order (R175). -/
def Dev.queuedPokes (d : Dev) (n : Nat) : List (Mask × Line) :=
  (d.coh.txns.filter fun t => t.line = n).filterMap (fun t => t.req.poked)
    ++ (d.coh.waits.filter fun w => w.line = n).filterMap fun w => w.req.poked

/-- The current bytes of a line at the point of coherence and its poison: an agent's M copy, or memory (R175, R176). What a dead agent held
in E or M is lost (R184). -/
def Dev.heldLine (d : Dev) (n : Nat) : Line × Bool :=
  match allAgents.find? (fun a => (d.aline a n).st = .m || (d.dead a && (d.aline a n).st = .e)) with
  | some a => if d.dead a then (d.memLine n, true) else ((d.aline a n).data, (d.aline a n).poison)
  | none => (d.memLine n, d.isPoisoned n)

/-- The bytes of a line as the Caller and Minuet read them: after their own writes that wait. -/
def Dev.peekLine (d : Dev) (n : Nat) : Line × Bool :=
  (d.queuedPokes n).foldl (fun x w => (mergeLine x.1 w.1 w.2, x.2 && w.1 ≠ BitVec.allOnes 64)) (d.heldLine n)

/-- The lines that bytes [pa, pa + n) touch. -/
def linesOf (pa n : Nat) : List Nat := if n = 0 then [] else (List.range ((pa + n - 1) / 64 - pa / 64 + 1)).map (pa / 64 + ·)

/-- Bytes of a line's value. -/
def lineBytes (x : Line) : List Byte := leBytes 64 x.toNat

/-- The replica of a line in a valid primary (R213, R214): the pair's offset within the unit is kept. -/
def Dev.replica (d : Dev) (n : Nat) : Option Nat :=
  let pa := 64 * n
  if !isHbm pa then none
  else
    ((List.range 64).find? fun j => d.get fHbmReplPairValid j = 1 && d.get fHbmReplPairPrimary j = pa / gib).map
      fun j => (d.get fHbmReplPairReplica j * gib + pa % gib) / 64

/-- Does a read of a line meet poison, an uncorrectable error or memory that is not backed? -/
def Dev.lineBad (d : Dev) (n : Nat) : Bool := (d.peekLine n).2 || d.hbm.bad.contains n || !d.backed (64 * n)

/-- What a read of a line returns in the end: its bytes, those of its replica (R214), or poison. -/
def Dev.viewLine (d : Dev) (n : Nat) : Line × Bool :=
  if !d.lineBad n then ((d.peekLine n).1, false)
  else match d.replica n with
    | some k => ((d.peekLine k).1, d.lineBad k)
    | none => ((d.peekLine n).1, true)

/-- n bytes at the point of coherence, and whether any comes from a poisoned line or memory that is not backed. -/
def Dev.peek (d : Dev) (pa n : Nat) : List Byte × Bool :=
  let ls := (linesOf pa n).map d.viewLine
  (((ls.flatMap fun x => lineBytes x.1).drop (pa % 64)).take n, ls.any (·.2))

/-- A 64-bit word at the point of coherence. -/
def Dev.peekWord (d : Dev) (pa : Nat) : Nat := leNat (d.peek pa 8).1

/-! ### Shared-cache ways (R210 to R212) -/

/-- The set of a line in a slice (log 13). -/
def shcSet (n line : Nat) : Nat := if n < 12 then line % 32768 else line % 65536

def Dev.shcMask (d : Dev) (n p : Nat) : Nat := d.get fShcWaysWays n p

/-- A line served at slice n for partition p: a hit becomes most recently used; a miss takes the lowest-numbered free way of the partition's
mask in its set (DESIGN CHOICE, log 124), or replaces the least recently used line in those ways; with mask 0 nothing is kept. -/
def Dev.shcTouch (d : Dev) (n p line : Nat) (dirty : Bool) : Dev :=
  let ls := d.coh.shc
  let put (l : List ShcLine) : Dev := d.setCoh { d.coh with shc := l }
  let mine (x : ShcLine) : Bool := x.slice = n && x.line = line
  match ls.find? mine with
  | some x => put ({ x with dirty := x.dirty || dirty } :: ls.filter (fun y => !mine y))
  | none =>
    let ways := bitsBelow 20 (d.shcMask n p)
    let peers := ls.filter fun x => x.slice = n && shcSet n x.line = shcSet n line && ways.contains x.way
    let new (w : Nat) : ShcLine := { slice := n, line := line, way := w, part := p, dirty := dirty }
    match ways.find? (fun w => peers.all fun x => x.way ≠ w) with
    | some w => put (new w :: ls)
    | none =>
      match peers.getLast? with
      | none => d
      | some v => put (new v.way :: ls.filter (fun y => !(y.slice = n && y.line = v.line)))

/-! ### Snoops of a request that is served in one step (R172, R173, R176, R179) -/

/-- The copies of a line brought to at most S, or taken back: for a line whose tag entry was lost, every copy is taken back. -/
def Dev.takeBack (d : Dev) (n : Nat) (inv : Bool) : Dev :=
  let lost := d.coh.suspect.contains n
  let d := if lost then d.setCoh { d.coh with suspect := d.coh.suspect.filter (· ≠ n) } else d
  allAgents.foldl (fun d a => if inv || lost then d.dropCopy a n else d.shareCopy a n) d

/-- Does an agent whose copy must be snooped not answer yet: in its ownership hold, with an eviction or write-back in flight, or dead and
not known to be (R174, R179, R184)? -/
def Dev.copiesHeld (d : Dev) (n : Nat) (inv : Bool) : Bool :=
  allAgents.any fun a =>
    let x := d.aline a n
    (if inv || d.coh.suspect.contains n then x.st ≠ .i else x.st = .e || x.st = .m) && (x.hold || x.leaving || d.dead a)

/-! ### Writes of Minuet -/

/-- A masked write of a line at its home (R176): every holder's copy is taken back, then the bytes are merged; a full-line
write clears the poison. -/
def Dev.pokeLine (d : Dev) (n : Nat) (m : Mask) (x : Line) : Dev :=
  if !d.backed (64 * n) then d
  else
    let d := d.takeBack n true
    let full := m = BitVec.allOnes 64
    let d := if full then (d.setPoison n false).setMemLine n x
      else if d.isPoisoned n then (if isLp (64 * n) then d else d.setMemLine n (mergeLine (d.memLine n) m x))
      else if d.hbm.bad.contains n then (d.setPoison n true).setMemLine n (mergeLine (d.memLine n) m x)
      else d.setMemLine n (mergeLine (d.memLine n) m x)
    d.setHbm { d.hbm with bad := d.hbm.bad.filter (· ≠ n), weak := d.hbm.weak.filter (· ≠ n) }

/-- A write of the Caller or Minuet joins the transactions of its line (R175). -/
def Dev.queuePoke (d : Dev) (rq : Rq) (n : Nat) (m : Mask) (x : Line) : Dev :=
  d.setCoh { d.coh with txns := d.coh.txns ++
    [{ home := d.home (64 * n), line := n, req := .poke rq m x, started := false, awaiting := [], owed := [] }] }

/-- The mask and bytes that writing bs at pa gives line n. -/
def linePart (pa : Nat) (bs : List Byte) (n : Nat) : Mask × Line :=
  let lo := 64 * n
  let bit (i : Nat) : Bool := pa ≤ lo + i && lo + i < pa + bs.length
  let byte (i : Nat) : Byte := if bit i then bs.getD (lo + i - pa) 0 else 0
  (BitVec.ofNat 64 (((List.range 64).map fun i => if bit i then 2 ^ i else 0).sum),
   BitVec.ofNat 512 (leNat ((List.range 64).map byte)))

/-- Minuet's write of bytes at the point of coherence, which carries no partition tag (R210); on a line with an open transaction, or one
that is held, it waits its turn (R175). -/
def Dev.poke (d : Dev) (pa : Nat) (bs : List Byte) : Dev :=
  (linesOf pa bs.length).foldl (fun d n =>
    let (m, x) := linePart pa bs n
    if d.lineBusy n || d.copiesHeld n true then d.queuePoke Rq.provider n m x
    else (d.pokeLine n m x).shcTouch (d.home (64 * n)) 48 n true) d

def Dev.pokeWord (d : Dev) (pa v : Nat) : Dev := d.poke pa (leBytes 8 v)

/-! ### The companion's interrupts and the provider log -/

def ulkUp : Nat := 2

/-- Flits that the retry buffer holds (R318). -/
def retryFlits : Nat := 256

/-- A message to the companion leaves in a flit of its own (DESIGN CHOICE, log 127), which the retry buffer keeps until it is acknowledged;
with the buffer full, it waits (R318). -/
def Dev.toCompanion (d : Dev) (m : Emission) : Dev :=
  let u := d.host.ulk
  if u.held = [] && u.buffer.length < retryFlits then
    (d.setUlk { u with next := (u.next + 1) % 1024, buffer := u.buffer ++ [(u.next, m)] }).emit m
  else d.setUlk { u with held := u.held ++ [m] }

/-- An interrupt for the companion with an identity (R320, R390): sent while the link is UP, else owed. -/
def Dev.msi (d : Dev) (ident : Nat) : Dev :=
  if d.get fUlkStatState = ulkUp then d.toCompanion (.companion 7 ident)
  else d.setUlk { d.host.ulk with owed := d.host.ulk.owed ++ [(7, ident)] }

/-- A companion interrupt event k (R390). -/
def Dev.event (d : Dev) (k : Nat) : Dev := d.msi (d.get fMntIntBaseIntBase + k)

/-- A partition's fault or fence interrupt (R316). -/
def Dev.partIrq (d : Dev) (fault : Bool) (p : Nat) : Dev :=
  let w := d.word (if fault then .prtIntFault else .prtIntFence) p 0
  if natBitsAt w 0 1 = 0 then d
  else if natBitsAt w 1 1 = 1 then d.msi (natBitsAt w 12 11)
  else
    let x := (natBitsAt w 2 7, natBitsAt w 9 3, natBitsAt w 12 11)
    (d.setHost { d.host with imsic := if d.host.imsic.contains x then d.host.imsic else d.host.imsic ++ [x] }).emit
      (.irq 0 x.1 x.2.1 x.2.2)

/-! ### The exchange window (R324 to R326) -/

def Dev.xwOn (d : Dev) : Bool := natBitsAt (d.word .ulkXwBase 0 0) 63 1 = 1
def Dev.xwSlot (d : Dev) (n : Nat) : Nat := natBitsAt (d.word .ulkXwBase 0 0) 26 26 * 67108864 + 4096 * n
def Dev.xwFlagAt (d : Dev) (n : Nat) : Nat := natBitsAt (d.word .ulkXwFlags 0 0) 17 35 * 131072 + 8 * n
def Dev.xwFlag (d : Dev) (n : Nat) : Nat := d.peekWord (d.xwFlagAt n)

/-- Is slot n handed to the device, in DEVICE with the KIND asked for? -/
def Dev.xwOwned (d : Dev) (n kind : Nat) : Bool :=
  d.xwOn && n < 16384 && natBitsAt (d.xwFlag n) 0 2 = 2 && natBitsAt (d.xwFlag n) 8 8 = kind

/-- Handed over for the device's own output: LENGTH 0 as well. -/
def Dev.xwOffered (d : Dev) (n kind : Nat) : Bool := d.xwOwned n kind && natBitsAt (d.xwFlag n) 16 13 = 0

/-- Minuet acquires the flag of slot n, for an operation that goes on (R326). -/
def Dev.xwTake (d : Dev) (n : Nat) : Dev := d.setMinuet { d.minuet with xwSeen := smapPut d.minuet.xwSeen n (d.xwFlag n) }

def Dev.xwTakeAll (d : Dev) (ns : List Nat) : Dev := ns.foldl Dev.xwTake d

/-- Does the flag of an acquired slot still stand as Minuet found it (R326)? -/
def Dev.xwKept (d : Dev) (n : Nat) : Bool := d.xwOn && smapGet? d.minuet.xwSeen n = some (d.xwFlag n)

/-- The slots of an operation are Minuet's no longer. -/
def Dev.xwForget (d : Dev) (ns : List Nat) : Dev := d.setMinuet { d.minuet with xwSeen := ns.foldl smapDel d.minuet.xwSeen }

/-- Releasing slot n to the companion with KIND and LENGTH; SEQ rises by one. -/
def Dev.xwRelease (d : Dev) (n kind len : Nat) : Dev :=
  let seq := (natBitsAt (d.xwFlag n) 32 32 + 1) % 2 ^ 32
  (d.xwForget [n]).pokeWord (d.xwFlagAt n) (1 + kind * 256 + len * 65536 + seq * 2 ^ 32)

/-! ### The provider log (R389) -/

def LogRec.bytes (r : LogRec) : List Byte :=
  leBytes 8 r.seq ++ leBytes 8 r.measure ++ leBytes 1 r.cls ++ leBytes 1 r.site ++ leBytes 1 r.part ++ leBytes 1 r.level
    ++ leBytes 4 r.code ++ leBytes 8 r.addr
    ++ leBytes 8 (r.detail.getD 0 0) ++ leBytes 8 (r.detail.getD 1 0) ++ leBytes 8 (r.detail.getD 2 0)
    ++ leBytes 4 r.lost ++ leBytes 4 0

/-- Minuet's slot of the log is no longer its own (R326): the operation is abandoned. -/
def Dev.logSlotGone (d : Dev) : Bool :=
  match d.minuet.logSlots with
  | [] => false
  | n :: _ => !d.xwKept n

/-- Releasing the first slot of the log with the records it holds. -/
def Dev.logRelease (d : Dev) : Dev :=
  match d.minuet.logSlots with
  | [] => d
  | n :: rest =>
    let len := 64 * d.minuet.logFill
    ((d.setMinuet { d.minuet with logSlots := rest, logFill := 0 }).xwRelease n 3 len).event 0

/-- A log slot that is full is released. -/
def Dev.logFull (d : Dev) : Dev := if d.minuet.logFill < 64 then d else d.logRelease

/-- Writing the oldest held record into slot n. -/
def Dev.logWrite (d : Dev) (n : Nat) (r : LogRec) (held : List LogRec) : Dev :=
  let fill := d.minuet.logFill
  ((d.poke (d.xwSlot n + 64 * fill) r.bytes).setMinuet { d.minuet with logHeld := held, logFill := fill + 1 }).logFull

def Dev.measureNow (d : Dev) : Nat := (smapGet d.tempo.measures 12 0).toNat

/-- A provider fault record, held by Minuet (R389): 8,192 at most; more are lost and counted. -/
def Dev.logHold (d : Dev) (cls site part level code addr : Nat) (detail : List Nat) : Dev :=
  let m := d.minuet
  let r : LogRec :=
    { seq := m.logSeq, measure := d.measureNow, cls := cls, site := site, part := part, level := level, code := code,
      addr := addr, detail := detail, lost := m.logLost }
  if m.logHeld.length < 8192 then d.setMinuet { m with logHeld := m.logHeld ++ [r], logSeq := m.logSeq + 1, logLost := 0 }
  else d.setMinuet { m with logLost := m.logLost + 1, logSeq := m.logSeq + 1 }

/-- No site or partition in a log record. -/
def noneByte : Nat := 0xFF

/-- Writing the oldest held record into the slot in use, and releasing a slot that is full. A slot another writer has
taken is dropped, and a record says so (R326). -/
def Dev.logStep (d : Dev) : Dev :=
  match d.minuet.logHeld, d.minuet.logSlots with
  | r :: held, n :: rest =>
    if d.logSlotGone then
      ((d.setMinuet { d.minuet with logSlots := rest, logFill := 0 }).xwForget [n]).logHold 11 noneByte noneByte 0 0 0 [n]
    else d.logWrite n r held
  | _, _ => d

def Dev.logDrain : Nat → Dev → Dev
  | 0, d => d
  | n + 1, d => Dev.logDrain n d.logStep

/-- A provider fault record (R389), written to a slot of the log where there is one. -/
def Dev.log (d : Dev) (cls site part level code addr : Nat) (detail : List Nat) : Dev :=
  Dev.logDrain 3 (d.logHold cls site part level code addr detail)

/-! ### Tokens -/

def Meter.zero : Meter :=
  { coreCycles := 0, preemptCycles := 0, arrayMacs := 0, hbmBytes := 0, lpddrBytes := 0, commits := 0 }

def Dev.meter (d : Dev) (ctx : Nat) (f : Meter → Meter) : Dev :=
  d.setTempo { d.tempo with meters := smapPut d.tempo.meters ctx (f (smapGet d.tempo.meters ctx Meter.zero)) }

/-- 64 bytes on the context's meter (R307). -/
def Dev.countBytes (d : Dev) (rq : Rq) (n : Nat) : Dev :=
  match rq.ctx with
  | none => d
  | some c => d.meter c fun m =>
      if n < 12 then { m with hbmBytes := m.hbmBytes + 64 } else { m with lpddrBytes := m.lpddrBytes + 64 }

/-- The internal activities of R301, in the order of their fields of TMP_BEATS. -/
def beatFields : List Fld :=
  [fTmpBeatsScrub, fTmpBeatsRemap, fTmpBeatsShadow, fTmpBeatsCarve, fTmpBeatsSnoop, fTmpBeatsTelem, fTmpBeatsFwdma, fTmpBeatsCutin,
   fTmpBeatsProm]

def actScrub : Nat := 0
def actRemap : Nat := 1
def actShadow : Nat := 2
def actCarve : Nat := 3
def actSnoop : Nat := 4
def actTelem : Nat := 5
def actFwdma : Nat := 6
def actCutin : Nat := 7
def actProm : Nat := 8

/-- Lines that one beat of a bridge carries (R304), and those of the host complex. -/
def beatLines (n : Nat) : Nat := if n < 12 then 975 else 260

/-- Lines that activity k may still move at instance n in this measure (R301). -/
def Dev.beatLeft (d : Dev) (n k : Nat) : Nat :=
  (match beatFields[k]? with
  | some f => d.get f n * beatLines n
  | none => 0) - smapGet d.tempo.used (16 * n + k) 0

/-- An activity moves lines in its beats of the measure; none where they are used up (R301). -/
def Dev.spend (d : Dev) (n k lines : Nat) : Option Dev :=
  if lines ≤ d.beatLeft n k then
    some (d.setTempo { d.tempo with used := smapPut d.tempo.used (16 * n + k) (smapGet d.tempo.used (16 * n + k) 0 + lines) })
  else none

/-- Does a group of partition p wait for a token of instance n? -/
def Dev.wantsToken (d : Dev) (n p : Nat) : Bool :=
  d.cores.any fun x => match x.2.run with
    | some r => r.part = p && r.groups.any fun g => g.2.sched = .pendingWait (.tokens n)
    | none => false

/-- Does an idle internal beat serve a request without a token (R303): LEND is 1, the partition has TOKENS there, lines of beats are idle,
and no partition that waits comes before it, ascending after the one served last (log 12)? -/
def Dev.lends (d : Dev) (rq : Rq) (n : Nat) : Bool :=
  let turn (p : Nat) : Nat := (p + 48 - smapGet d.tempo.lent n 48) % 49
  d.get fTmpBeatsLend n = 1 && 0 < d.get fPrtBwTokens n rq.part
    && smapGet d.tempo.lentLines n 0 < ((List.range 9).map (d.beatLeft n)).sum
    && (List.range 49).all fun p => d.get fPrtBwTokens n p = 0 || !d.wantsToken n p || turn rq.part ≤ turn p

/-- One token of a request's partition at instance n (R306); without one, an idle beat under lending (R303); none where the request must
wait. -/
def Dev.token (d : Dev) (rq : Rq) (n : Nat) : Option Dev :=
  let key := 64 * n + rq.part
  let left := smapGet d.tempo.budgets key 0
  if 0 < left then
    some ((d.setTempo { d.tempo with budgets := smapPut d.tempo.budgets key (left - 1) }).countBytes rq n)
  else if d.lends rq n then
    some ((d.setTempo { d.tempo with
      lent := smapPut d.tempo.lent n rq.part
      lentLines := smapPut d.tempo.lentLines n (smapGet d.tempo.lentLines n 0 + 1) }).countBytes rq n)
  else none

/-! ### Admission at a home (R180, R181, R306) -/

/-- The numbers of the requesters at the homes (DESIGN CHOICE, log 22): core k is k; then the walkers of tile t, the Caller, channel c of tile
t's copy engine, the collective engine of a bridge, the receiver of other modules' accesses; an agent. -/
def walkerNum (t : Nat) : Nat := 768 + t
def callerNum : Nat := 816
def channelNum (t c : Nat) : Nat := 832 + 4 * t + c
def collNum (b : Nat) : Nat := 1024 + b
def receiverNum : Nat := 1036
def agentNum (a : Nat) : Nat := 4096 + a

/-- Keys of requesters at a home. -/
def reqKey (h num : Nat) : Nat := 8192 * h + num

/-- Entries of a home's transaction table in use. -/
def Dev.txnsAt (d : Dev) (h : Nat) : Nat := d.coh.txns.countP fun t => t.home = h

/-- The requesters with a reservation at a home, in order. -/
def Dev.reserved (d : Dev) (h : Nat) : List Nat := (d.coh.reservations.filter fun r => r.1 = h).map (·.2)

/-- Is an entry free for a requester: entries go to reservations first, in their order (R180)? -/
def Dev.entryFor (d : Dev) (h num : Nat) : Bool :=
  let rs := d.reserved h
  (rs.idxOf? num).getD rs.length < 256 - d.txnsAt h

def Dev.dropReservation (d : Dev) (h num : Nat) : Dev :=
  d.setCoh { d.coh with reservations := d.coh.reservations.filter fun r => r ≠ (h, num) }

/-- Does a requester wait out a backoff at a home (R181)? -/
def Dev.backsOff (d : Dev) (h num : Nat) : Bool := d.coh.backoff.any fun b => b.1 = h && b.2.1 = num

/-- A request that home h accepts: it takes an entry and its token, and its reservation and refusals are over; none where the home has
no entry or token for it, or it waits out a backoff. -/
def Dev.accepts (d : Dev) (h : Nat) (rq : Rq) : Option Dev :=
  if d.backsOff h rq.num || !d.entryFor h rq.num then none
  else (d.token rq h).map fun d =>
    let d := d.dropReservation h rq.num
    d.setCoh { d.coh with nacks := smapDel d.coh.nacks (reqKey h rq.num) }

/-! ### Uncorrectable lines -/

/-- Is the device in full service and a home in RETRY mode, so that remaps run (R204)? -/
def Dev.remapsRun (d : Dev) (n : Nat) : Bool := d.get fMntBootStatStage = 5 && d.get fShcHomeCtlNackMode n = 0

/-- The remap unit of an HBM line: stack and unit (R203). -/
def Dev.remapUnit (d : Dev) (n : Nat) : Nat × Nat := let (s, o) := d.hbmPlace (64 * n); (s, o / 65536)

/-- Starting a remap (R203, R204): the lowest-numbered free reserve unit is taken (DESIGN CHOICE, log 123), unless all 4,096 are in use,
which the log reports. -/
def Dev.startRemap (d : Dev) (s u : Nat) : Dev :=
  if d.hbm.remaps.any (fun r => r.stack = s && r.unit = u) then d
  else
    let used := (d.hbm.remaps.filter fun r => r.stack = s).map Remap.reserve
    match (List.range 4096).find? (fun r => !used.contains r) with
    | none => d.log 8 (56 + stackBridge s) noneByte 0 0 0 [s]
    | some r =>
      let ppr := d.get fHbmRasCtlPprAtReset = 1
      let x : Remap := { stack := s, unit := u, reserve := r, copied := 0, ppr := ppr }
      let d := (d.setHbm { d.hbm with remaps := d.hbm.remaps ++ [x] }).recordChange
      let d := d.bump fHbmStackStatRemapUsed 1 s
      if ppr then d.bump fHbmStackStatPprPending 1 s else d

/-- An uncorrectable line is found (R199, R200, R202): it is poisoned in place, counted, logged, and an HBM line starts a
remap. -/
def Dev.foundBad (d : Dev) (n : Nat) : Dev :=
  let d := d.setHbm { d.hbm with bad := d.hbm.bad.filter (· ≠ n), weak := d.hbm.weak.filter (· ≠ n) }
  let d := d.setPoison n true
  if isHbm (64 * n) then
    let (s, u) := d.remapUnit n
    let d := (d.bump fHbmStackStatUeCount 1 s).log 1 (56 + stackBridge s) noneByte 0 0 (64 * n) []
    d.startRemap s u
  else d.log 1 68 noneByte 0 0 (64 * n) [(lpPlace (64 * n)).1, (lpPlace (64 * n)).2]

/-- An access to memory that is not backed (R195, R198): logged as class 12. -/
def Dev.withheld (d : Dev) (n p : Nat) : Dev := d.log 12 noneByte (if p < 48 then p else noneByte) 0 0 (64 * n) []

/-- A corrected error of a line (R202, R203): an HBM line's counts for its remap unit in the scrub pass, an LPDDR5X line's in CE_COUNT. -/
def Dev.corrected (d : Dev) (n : Nat) : Dev :=
  if isHbm (64 * n) then
    let (s, u) := d.remapUnit n
    let k := 1048576 * s + u
    let c := smapGet d.hbm.corrected k 0 + 1
    let d := d.setHbm { d.hbm with corrected := smapPut d.hbm.corrected k c }
    if d.get fHbmRasCtlCeThresh ≤ c then d.startRemap s u else d
  else d.bump fLpmRasStatCeCount 1

/-- Is a line in the replica of a valid pair (R213)? -/
def Dev.isReplica (d : Dev) (n : Nat) : Bool :=
  isHbm (64 * n) && (List.range 64).any fun j => d.get fHbmReplPairValid j = 1 && d.get fHbmReplPairReplica j = 64 * n / gib

/-- What the line code finds in a stored line that is read (R199, R202, R203). -/
def Dev.codeFinds (d : Dev) (n : Nat) (f : Finding) : Dev :=
  if (f = .uncorrectable && !d.isPoisoned n) || d.hbm.bad.contains n then d.foundBad n
  else if f = .correctable || d.hbm.weak.contains n then d.corrected n else d

/-- Cells that fail after the read (R199). -/
def Dev.codeLeaves (d : Dev) (n : Nat) (f : Finding) : Dev :=
  match f with
  | .weakens => d.setHbm { d.hbm with weak := insertNat d.hbm.weak n }
  | .decays => d.setHbm { d.hbm with bad := insertNat d.hbm.bad n }
  | _ => d

/-- Is a line kept in slice h? -/
def Dev.shcHas (d : Dev) (h n : Nat) : Bool := d.coh.shc.any fun x => x.slice = h && x.line = n

/-- An uncorrectable error in a line that slice h keeps (R201): a clean line is dropped, to be fetched again; a dirty one is poisoned in
place. -/
def Dev.sliceFinds (d : Dev) (h n : Nat) (f : Finding) : Dev :=
  match f with
  | .uncorrectable =>
    if d.coh.shc.any (fun x => x.slice = h && x.line = n && x.dirty) then d.setPoison n true
    else d.setCoh { d.coh with shc := d.coh.shc.filter fun x => !(x.slice = h && x.line = n) }
  | _ => d

/-! ### Agents' lines (R167, R169, R171) -/

/-- Sets and ways of an agent's remote-line portion (R167): a bridge's, the host complex's, the companion's as declared (R321);
the set of a line is its number modulo the sets (log 13). -/
def Dev.agentSets (d : Dev) (a : Nat) : Nat :=
  if a < 12 then 2048 else if a = 12 then 16384 else 2 ^ d.get fUlkStatSetsLog2

def Dev.agentWays (d : Dev) (a : Nat) : Nat := if a < 13 then 16 else d.get fUlkStatWays

/-- Has the home a request of this agent for this line already, or is its grant on the way? -/
def Dev.agentAsks (d : Dev) (a n : Nat) : Bool :=
  d.coh.txns.any (fun t => t.line = n && (match t.req with
    | .rdShared b _ | .rdOwn b _ | .claimOwn b _ => b = a
    | _ => false))
    || d.coh.msgs.any fun m => match m with
      | .grant l b _ _ _ _ => l = n && b = a
      | _ => false

/-- The lines in the set of line n, other than n itself, that agent a holds or has a grant to come for: each has a way. -/
def Dev.agentPeers (d : Dev) (a n : Nat) : List Nat :=
  (d.coh.lines.filter fun x => x.1 % 16 = a && x.1 / 16 ≠ n && x.1 / 16 % d.agentSets a = n % d.agentSets a
    && (x.2.st ≠ .i || d.agentAsks a (x.1 / 16))).map (·.1 / 16)

/-- Has an agent no way left for line n? -/
def Dev.agentFull (d : Dev) (a n : Nat) : Bool := d.agentWays a ≤ (d.agentPeers a n).length

/-- The line that makes room for line n: of those in its set with nothing under way, the one of lowest address (log 19). -/
def Dev.agentVictim (d : Dev) (a n : Nat) : Option Nat :=
  (d.agentPeers a n).find? fun v =>
    let x := d.aline a v
    x.st ≠ .i && !x.hold && !x.leaving && x.req.isNone && !d.lineBusy v

/-- An agent writes its copy of a line back to the home, where it is kept for the partition that it was brought for (R210), or drops it. -/
def Dev.agentRoom (d : Dev) (a n : Nat) : Dev :=
  if !d.agentFull a n then d
  else match d.agentVictim a n with
    | none => d
    | some v =>
      let x := d.aline a v
      let d := d.dropCopy a v
      if x.st = .m then d.shcTouch (d.home (64 * v)) x.rq.part v true else d

/-! ### Serving requests -/

/-- The bridge that serves an LPDDR5X line to a requester of a quadrant (R170). -/
def Dev.bridgeOf (rq : Rq) (n : Nat) : Option Nat :=
  rq.quad.bind fun q => if isLp (64 * n) then some (lpBridge q (64 * n)) else none

/-- That bridge, when it holds the line as the request needs it (R170, R176, R177). -/
def Dev.bridgeHas (d : Dev) (rq : Rq) (n : Nat) (write : Bool) : Option Nat :=
  (Dev.bridgeOf rq n).filter fun b =>
    let x := d.aline b n
    !x.leaving && !d.dead b && (x.st = .m || x.st = .e || (!write && x.st = .s))

/-- Must a request wait: for stream requests before it at its bridge, for an open transaction (R175), for a copy whose holder does not answer
yet, for a bridge that is dead or has no way free? -/
def Dev.mustWait (d : Dev) (rq : Rq) (n : Nat) (write : Bool) : Bool :=
  let queued := match Dev.bridgeOf rq n with
    | some b => d.dead b || d.coh.waits.any fun w => w.agent = b && w.line = n
    | none => false
  let full := match Dev.bridgeOf rq n with
    | some b => d.agentFull b n && (d.agentVictim b n).isNone
    | none => false
  queued || ((d.bridgeHas rq n write).isNone && (d.lineBusy n || d.copiesHeld n write || full))

/-- The request that reaches the home: the bridge's own for an LPDDR5X line (R306). -/
def Rq.atHome (rq : Rq) (n : Nat) : Rq :=
  match Dev.bridgeOf rq n with
  | some b => { rq with num := agentNum b }
  | none => rq

/-- The entry and the token of a request that reaches a line's home (R180, R306): none is taken where the bridge holds the line. -/
def Dev.homeToken (d : Dev) (rq : Rq) (n : Nat) (write : Bool) : Option Dev :=
  if (d.bridgeHas rq n write).isSome then some d else d.accepts (d.home (64 * n)) (rq.atHome n)

/-- Next-line prefetch at a slice (R161, R163): a miss to memory in slice h also fetches the following line of the same page at its own home,
in the requester's ways there and for a token of its own; without one it is dropped, as on poisoned data. -/
def Dev.slicePrefetch (d : Dev) (rq : Rq) (n : Nat) : Dev :=
  let k := n + 1
  let h := d.home (64 * k)
  if k % 64 = 0 || d.get fShcPfCtlEnable (d.home (64 * n)) ≠ 1 || d.shcHas h k || d.lineBad k || d.lineBusy k
      || allAgents.any (fun a => (d.aline a k).st = .m || (d.aline a k).st = .e) then d
  else match d.accepts h (rq.atHome k) with
    | none => d
    | some d => d.shcTouch h rq.part k false

/-- A home reads a line for a request whose snoops are answered (R199, R201, R210, R215): f is what the code finds, in the slice where the
line is kept there, else in memory. -/
def Dev.homeRead (d : Dev) (rq : Rq) (n : Nat) (f : Finding) : (Line × Bool) × Dev :=
  if !d.backed (64 * n) then ((0, true), d.withheld n rq.part)
  else
    let h := d.home (64 * n)
    let kept := d.shcHas h n
    let again := d.isPoisoned n && d.isReplica n
    let d := if kept then d.sliceFinds h n f else d
    let missed := !d.shcHas h n
    let g : Finding := if kept then .clean else f
    let d := if missed then (d.codeFinds n g).codeLeaves n g else d
    let d := if again then d.log 1 (56 + h) noneByte 0 0 (64 * n) [] else d
    let r := (d.memLine n, d.isPoisoned n)
    let d := d.shcTouch h rq.part n false
    (r, if missed && !r.2 then d.slicePrefetch rq n else d)

/-- A bridge gains the line that a request of its quadrant needs, as an agent (R173, R176): M for a write, else S, or E where no other agent
holds it; the access that it gains the line for falls in its ownership hold (R179). -/
def Dev.gain (rq : Rq) (n : Nat) (write : Bool) (d : Dev) : Dev :=
  match Dev.bridgeOf rq n with
  | none => d
  | some b =>
    if (d.bridgeHas rq n write).isSome then d
    else
      let d := (d.takeBack n write).agentRoom b n
      let ((x, bad), d) := d.homeRead rq n .clean
      let st : LState := if write then .m else if allAgents.any fun a => a ≠ b && d.tag a n ≠ .i then .s else .e
      let y : ALine := { ALine.none with st := st, data := x, poison := bad, hold := st ≠ .s, used := st ≠ .s, rq := rq }
      (d.setAline b n y).setTag b n st

/-- A read of a line at the point of coherence (R176): agents holding it in E or M keep at most S; a bridge serves an LPDDR5X line from its
own copy. -/
def Dev.serveRead (d : Dev) (rq : Rq) (n : Nat) : (Line × Bool) × Dev :=
  if !d.backed (64 * n) then ((0, true), d.withheld n rq.part)
  else
    let d := d.gain rq n false
    match d.bridgeHas rq n false with
    | some b => (((d.aline b n).data, (d.aline b n).poison), d)
    | none => (d.takeBack n false).homeRead rq n .clean

/-- An agent's copy after a masked write (R176): a full-line write clears the poison. -/
def ALine.written (x : ALine) (m : Mask) (l : Line) : ALine :=
  { x with st := .m, data := mergeLine x.data m l, poison := x.poison && m ≠ BitVec.allOnes 64, used := true }

/-- A masked write at a line's home for a partition (R176, R199, R210): a write of part of a line reads it. -/
def Dev.homeWrite (d : Dev) (rq : Rq) (n : Nat) (m : Mask) (x : Line) : Dev :=
  if !d.backed (64 * n) then d.withheld n rq.part
  else
    let h := d.home (64 * n)
    let d := if m = BitVec.allOnes 64 || d.shcHas h n then d else d.codeFinds n .clean
    (d.pokeLine n m x).shcTouch h rq.part n true

/-- A masked write of a line (R176): at its home, or for an LPDDR5X line at the bridge that serves the requester. -/
def Dev.serveWrite (d : Dev) (rq : Rq) (n : Nat) (m : Mask) (x : Line) : Dev :=
  if !d.backed (64 * n) then d.withheld n rq.part
  else
    let d := d.gain rq n true
    match d.bridgeHas rq n true with
    | some b => d.setAline b n ((d.aline b n).written m x)
    | none => d.homeWrite rq n m x

/-- What a bridge asks the host shared cache for, to serve a stream request from its own copy (R176). -/
def bridgeNeeds (st : LState) (exclusive : Bool) : Option AgentReq :=
  if st = .m || st = .e then none
  else if exclusive then some (if st = .s then .claimOwn else .rdOwn)
  else if st = .s then none else some .rdShared

/-- A write without a token: a near cache's write-back, or the Caller's to its own structures (R306, log 38). Where it must wait it joins the
requests of its line, at the bridge or at the home (R170, R175). -/
def Dev.storeLine (d : Dev) (rq : Rq) (n : Nat) (m : Mask) (x : Line) : Dev :=
  if !d.mustWait rq n true then d.serveWrite rq n m x
  else match Dev.bridgeOf rq n with
    | none => d.queuePoke rq n m x
    | some b =>
      let y := d.aline b n
      let d := d.setCoh { d.coh with waits := d.coh.waits ++ [{ agent := b, line := n, req := .poke rq m x }] }
      if y.req.isSome then d else d.setAline b n { y with req := bridgeNeeds y.st true, rq := rq }

/-- Such a write of bytes. -/
def Dev.store (d : Dev) (rq : Rq) (pa : Nat) (bs : List Byte) : Dev :=
  (linesOf pa bs.length).foldl (fun d n => let (m, x) := linePart pa bs n; d.storeLine rq n m x) d

def Dev.storeWord (d : Dev) (rq : Rq) (pa v : Nat) : Dev := d.store rq pa (leBytes 8 v)

/-- A read request with its entry and token: none where it must wait (R172, R175, R180, R306). A poisoned line of a valid primary is
redirected to its replica, whose read takes a token too (R214, R215). -/
def Dev.pocRead (rq : Rq) (n : Nat) (d : Dev) : Option ((Line × Bool) × Dev) :=
  if d.mustWait rq n false then none
  else match d.homeToken rq n false with
    | none => none
    | some d =>
      let (r, d) := d.serveRead rq n
      if !r.2 then some (r, d)
      else match d.replica n with
        | none => some (r, d)
        | some k =>
          let d := d.log 3 (56 + d.home (64 * n)) (if rq.part < 48 then rq.part else noneByte) 0 0 (64 * n) []
          if d.mustWait rq k false then none
          else (d.homeToken rq k false).map fun d => d.serveRead rq k

def Dev.pocWrite (rq : Rq) (n : Nat) (m : Mask) (x : Line) (d : Dev) : Option Dev :=
  if d.mustWait rq n true then none
  else (d.homeToken rq n true).map fun d => d.serveWrite rq n m x

/-- What a read of Minuet's or the Caller's own meets, that takes no token (R195, R199, R214): an error of the line code is dealt with, and a
line of a valid primary read in its replica is logged. -/
def Dev.noted (d : Dev) (pa n : Nat) : Dev :=
  (linesOf pa n).foldl (fun d n =>
    if !d.lineBad n then d
    else if !d.backed (64 * n) then d.withheld n 48
    else
      let d := d.codeFinds n .clean
      if (d.replica n).isSome then d.log 3 (56 + d.home (64 * n)) noneByte 0 0 (64 * n) [] else d) d

/-- Reading several lines in order. -/
def Dev.pocLines (rq : Rq) : List Nat → Dev → Option (List (Line × Bool) × Dev)
  | [], d => some ([], d)
  | n :: t, d =>
    match d.pocRead rq n with
    | none => none
    | some (x, d) =>
      match Dev.pocLines rq t d with
      | none => none
      | some (xs, d) => some (x :: xs, d)

/-- n bytes from pa with the tokens of their lines; the flag says that one came from a poisoned line. -/
def Dev.pocBytes (rq : Rq) (pa n : Nat) (d : Dev) : Option ((List Byte × Bool) × Dev) :=
  match Dev.pocLines rq (linesOf pa n) d with
  | none => none
  | some (xs, d) => some ((((xs.flatMap fun x => lineBytes x.1).drop (pa % 64)).take n, xs.any (·.2)), d)

/-- Writing bytes at pa with the tokens of their lines. -/
def Dev.pocStore (rq : Rq) (pa : Nat) (bs : List Byte) (d : Dev) : Option Dev :=
  (linesOf pa bs.length).foldl (fun r n => r.bind fun d => let (m, x) := linePart pa bs n; d.pocWrite rq n m x) (some d)

/-! ### Atomics (R78, R177) -/

/-- The new value of an atomic on w bits; none for a reserved AOP. -/
def atomNew (aop : Nat) (w old v c : Nat) : Option Nat :=
  let f := if w = 32 then fpF32 else fpF64
  match aop with
  | 0 => some ((old + v) % 2 ^ w)
  | 1 => some (Fp.round f (Fp.add (Fp.decode f old) (Fp.decode f v))).bits
  | 2 => some (old &&& v)
  | 3 => some (old ||| v)
  | 4 => some (old ^^^ v)
  | 5 => some (if sextNat w v < sextNat w old then v else old)
  | 6 => some (if sextNat w old < sextNat w v then v else old)
  | 7 => some (min old v)
  | 8 => some (max old v)
  | 9 => some v
  | 10 => some (if old = c then v else old)
  | _ => none

/-- An atomic operation on a line, in the shared cache that owns it (R177): what was read, and whether it is poisoned; f gives the line that
is stored, if any. None where the request must wait. -/
def Dev.pocUpdate (rq : Rq) (n : Nat) (f : Line → Bool → Option Line) (d : Dev) : Option ((Line × Bool) × Dev) :=
  if d.mustWait rq n true then none
  else match d.homeToken rq n true with
    | none => none
    | some d =>
      if !d.backed (64 * n) then some ((0, true), d.withheld n rq.part)
      else
        let d := d.gain rq n true
        let own := d.bridgeHas rq n true
        let ((x, bad), d) := match own with
          | some b => (((d.aline b n).data, (d.aline b n).poison), d)
          | none => (d.takeBack n true).homeRead rq n .clean
        some ((x, bad), match f x bad, own with
          | none, _ => d
          | some y, some b => d.setAline b n ((d.aline b n).written (BitVec.allOnes 64) y)
          | some y, none => (d.pokeLine n (BitVec.allOnes 64) y).shcTouch (d.home (64 * n)) rq.part n true)

/-- The word of a line at an offset. -/
def atomWord (x : Line) (off : Nat) (wide : Bool) : Nat := natBitsAt x.toNat (8 * off) (if wide then 64 else 32)

/-- A line with an atomic performed on it (R78, R177). -/
def atomLine (x : Line) (off aop : Nat) (wide : Bool) (v c : Nat) : Line :=
  let w := if wide then 64 else 32
  let new := (atomNew aop w (atomWord x off wide) (v % 2 ^ w) (c % 2 ^ w)).getD (atomWord x off wide)
  BitVec.ofNat 512 (natSetBits x.toNat (8 * off) w new)

/-- An atomic on a 32-bit or 64-bit word: the old value and whether the line is poisoned; a poisoned line is left as it was (R81). -/
def Dev.pocAtomic (rq : Rq) (pa aop : Nat) (wide : Bool) (v c : Nat) (d : Dev) : Option ((Nat × Bool) × Dev) :=
  (d.pocUpdate rq (pa / 64) fun x bad => if bad then none else some (atomLine x (pa % 64) aop wide v c)).map
    fun r => ((atomWord r.1.1 (pa % 64) wide, r.1.2), r.2)

end Sys2Proof.Machine
end

