-- ==== Sys2Proof/Machine/Translate.lean ====
section
/-! DEFINITION. Range tables, walks, cached translations, fault records and the fault queue (09 R217 to R228), and contexts (10
R237, R239). -/

namespace Sys2Proof.Machine

open Sys2Proof

/-! ### Contexts and blocks -/

def Dev.ctxFirst (d : Dev) (p : Nat) : Nat := d.get fClrCtxRangeFirst p
def Dev.ctxCount (d : Dev) (p : Nat) : Nat := d.get fClrCtxRangeCount p
def Dev.ctxIn (d : Dev) (p ctx : Nat) : Bool := d.ctxFirst p ≤ ctx && ctx < d.ctxFirst p + d.ctxCount p

def Dev.qFirst (d : Dev) (p : Nat) : Nat := d.get fClrQRangeFirst p
def Dev.qIn (d : Dev) (p q : Nat) : Bool := d.qFirst p ≤ q && q < d.qFirst p + d.get fClrQRangeCount p

/-- The context descriptor's address (R239). -/
def Dev.ctxAt (d : Dev) (p ctx : Nat) : Nat := d.get fClrCtxTabBase p * 4096 + 512 * (ctx - d.ctxFirst p)

/-- The quadrant of a partition's logical tile 0, from which the Caller's requests are served (R170). -/
def Dev.partQuad (d : Dev) (p : Nat) : Option Nat := (d.tiles p).head?.map (· / 12)

/-- The Caller's and the walkers' requests for a partition and context. -/
def Dev.callerRq (d : Dev) (p ctx : Nat) : Rq := { part := p, ctx := some ctx, quad := d.partQuad p, num := callerNum }

/-- The Caller's requests for a partition's own structures: its fault queue and its commit reserve. -/
def Dev.partRq (d : Dev) (p : Nat) : Rq := { d.callerRq p 0 with ctx := none }

/-- SYNC_SEQ of a context (R220). -/
def Dev.syncSeq (d : Dev) (p ctx : Nat) : Nat := d.peekWord (d.ctxAt p ctx + 72)

/-! ### The walk (R219) -/

def causeNotMapped : Nat := 1
def causeRights : Nat := 2
def causeTable : Nat := 3
def causeWindow : Nat := 4
def causeNotice : Nat := 15

/-- How a walk ends: with a translation, or with a fault. -/
inductive WalkEnd where
  | entry (x : Xent)
  | fault (cause : Nat)
  deriving DecidableEq, Repr

/-- The largest slot in 1 to count whose start page is at most the page (R219). Where KEY_PAGE is out of order or entries overlap, which
R219 leaves undiagnosed, it is the same slot (DESIGN CHOICE, log 114). -/
def lastSlot (start : Nat → Nat) (page : Nat) : Nat → Option Nat
  | 0 => none
  | n + 1 => if start (n + 1) ≤ page then some (n + 1) else lastSlot start page n

/-- A leaf entry's words as a translation of one page (R217, R218, R411), and the lines it reads: TABLE_ERROR for KIND 3, a GRANULAR range
off its boundary, an end past 2^45, or a mapping outside memory. An entry or a granule word that names a granule of the commit reserve,
which R295 leaves undiagnosed, gives a translation like any other (DESIGN CHOICE, log 115); Dev.strays confines the accesses made
through it. -/
def Dev.entryOf (d : Dev) (ctx page w0 w1 w2 w3 : Nat) : WalkEnd × List Nat :=
  let va := natBitsAt w0 0 45
  let len := natBitsAt w1 0 45
  let base := natBitsAt w2 0 40
  let kind := natBitsAt w3 0 2
  let x : Xent :=
    { ctx := ctx, page := va, pages := len, rangePage := va, rangePages := len, pa := base * 4096,
      read := w3.testBit 2, write := w3.testBit 3, atomic := w3.testBit 4, sole := w3.testBit 5,
      granular := false, word := 0, window := none }
  if va + len > 2 ^ 45 || kind = 3 then (.fault causeTable, [])
  else if kind = 2 then
    (.entry { x with pa := 0, window := some { module_ := natBitsAt base 16 12, window := natBitsAt base 0 16, key := natBitsAt w3 32 32 } },
     [])
  else if kind = 0 then
    let lo := base * 4096
    let hi := lo + len * 4096
    (if hi ≤ hbmEnd || (lpBase ≤ lo && hi ≤ lpEnd) then .entry x else .fault causeTable, [])
  else if va % 16 ≠ 0 || len % 16 ≠ 0 then (.fault causeTable, [])
  else
    let word := base * 4096 + 8 * ((page - va) / 16)
    let (bs, bad) := d.peek word 8
    let g := natBitsAt (leNat bs) 0 36 * 65536
    (if bad || !(isMemory g) || !(isMemory (g + 65535)) then .fault causeTable
     else .entry { x with page := va + (page - va) / 16 * 16, pages := 16, pa := g, granular := true, word := word }, [word / 64])

/-- The lines of a node that a search reads: its header's, and those of the slots from COUNT down to the one it takes, or to slot 1 where it
takes none (DESIGN CHOICE, log 116). -/
def nodeLines (node count : Nat) (found : Option Nat) : List Nat :=
  let lo := found.getD 1
  (node / 64 :: (List.range (count + 1 - lo)).map fun j => (node + 32 * (count - j)) / 64).eraseDups

/-- Walking from a node at a level (R219); the lines read are listed, for their tokens and reports. -/
def Dev.walkFrom (d : Dev) (ctx page : Nat) : Nat → Nat → WalkEnd × List Nat
  | 0, _ => (.fault causeTable, [])
  | fuel + 1, node =>
    let (hdr, bad) := d.peek node 8
    let h := leNat hdr
    let count := natBitsAt h 0 8
    if bad || count = 0 || count > 127 then (.fault causeTable, [node / 64])
    else
      let word (i w : Nat) : Nat := d.peekWord (node + 32 * i + 8 * w)
      let found := lastSlot (fun i => natBitsAt (word i 0) 0 45) page count
      let lines := nodeLines node count found
      if lines.any fun n => (d.peek (64 * n) 64).2 then (.fault causeTable, lines)
      else match found with
      | none => (.fault causeNotMapped, lines)
      | some i =>
        if h.testBit 8 then
          if page < natBitsAt (word i 0) 0 45 + natBitsAt (word i 1) 0 45 then
            let (e, more) := d.entryOf ctx page (word i 0) (word i 1) (word i 2) (word i 3)
            (e, lines ++ more)
          else (.fault causeNotMapped, lines)
        else
          let (e, more) := Dev.walkFrom d ctx page fuel (natBitsAt (word i 2) 0 40 * 4096)
          (e, lines ++ more)

/-- The walk of a page of a context: its ROOT is read at the point of coherence (R220, R239). -/
def Dev.walk (d : Dev) (p ctx page : Nat) : WalkEnd × List Nat :=
  let desc := d.ctxAt p ctx + 64
  let (bs, bad) := d.peek desc 8
  if bad then (.fault causeTable, [desc / 64])
  else
    let (e, ls) := d.walkFrom ctx page 4 (natBitsAt (leNat bs) 0 40 * 4096)
    (e, desc / 64 :: ls)

/-- The tokens and the reports of the lines a walk reads (R214, R219, R306): none where one must wait. -/
def Dev.walkReads (rq : Rq) (ls : List Nat) (d : Dev) : Option Dev := (Dev.pocLines rq ls d).map (·.2)

/-! ### Translations -/

def Xent.covers (x : Xent) (ctx page : Nat) : Bool := x.ctx = ctx && x.page ≤ page && page < x.page + x.pages

/-- The right an access needs (R217): an atomic needs READ and WRITE as well. -/
def Xent.grants (x : Xent) : Access → Bool
  | .read => x.read
  | .write => x.write
  | .atomic => x.atomic && x.read && x.write

/-- The physical address of a virtual address that an entry covers. -/
def Xent.phys (x : Xent) (va : Nat) : Nat := x.pa + (va - x.page * 4096)

def findXent (l : List Xent) (ctx page : Nat) : Option Xent := l.find? fun x => x.covers ctx page

/-- Do two entries of one context cover a common page? -/
def Xent.overlaps (x y : Xent) : Bool := x.ctx = y.ctx && x.page < y.page + y.pages && y.page < x.page + x.pages

/-- Caching a translation in a structure of n entries: it takes the place of those it overlaps, and the oldest leaves (log 14). -/
def pushXent (n : Nat) (l : List Xent) (x : Xent) : List Xent :=
  let l := l.filter (fun y => y ≠ x && !x.overlaps y) ++ [x]
  l.drop (l.length - n)

def Dev.rcacheOf (d : Dev) (t : Nat) : List Xent := smapGet d.rcache t []

def Dev.cacheXent (d : Dev) (t : Nat) (x : Xent) : Dev :=
  { d with rcache := smapPut d.rcache t (pushXent 1024 (d.rcacheOf t) x) }

/-- Looking a page up in a tile's range cache, for an access: an entry that does not grant it is walked anew, which
faults (R219). -/
def Dev.lookup (d : Dev) (t ctx page : Nat) (a : Access) : Option Xent :=
  (findXent (d.rcacheOf t) ctx page).filter (fun x => x.grants a)

/-- The walks of a tile under way, in arrival order: the first 8 have a walker, the others wait in the miss queue. -/
def Dev.tileWalks (d : Dev) (t : Nat) : List Walk := d.walks.filter fun w => w.tile = t && w.fault = none

def walkersPerTile : Nat := 8
def missQueueSize : Nat := 64

/-- Has a walk a walker? The Caller's dispatch (48) reads the tables itself. -/
def Dev.walking (d : Dev) (w : Walk) : Bool := w.tile = 48 || ((d.tileWalks w.tile).take walkersPerTile).contains w

/-- Is there a place for one more walk in a tile: a walker, or an entry of the miss queue (R223)? -/
def Dev.missRoom (d : Dev) (t : Nat) : Bool := t = 48 || (d.tileWalks t).length < walkersPerTile + missQueueSize

/-- Two misses of one stream (R223): of the same command, group or lead thread, access and kind, whatever address in the page. -/
def Strm.same (a b : Strm) : Bool :=
  a.q = b.q && a.slot = b.slot && a.slotRead = b.slotRead && a.who = b.who && a.access = b.access && a.fill = b.fill

/-- A stream's miss (R223): it joins the pending walk of the same tile, context and page, or begins one. With the miss queue full it is
held at its core, and tries again. -/
def Dev.miss (d : Dev) (t ctx page : Nat) (s : Strm) : Dev :=
  let here (w : Walk) : Bool := w.tile = t && w.ctx = ctx && w.page = page
  if d.walks.any (fun w => here w && w.streams.any s.same) then d
  else if d.walks.any (fun w => here w && w.fault = none) then
    { d with walks := d.walks.map fun w => if here w && w.fault = none then { w with streams := w.streams ++ [s] } else w }
  else if !d.missRoom t then d
  else { d with walks := d.walks ++ [{ tile := t, ctx := ctx, page := page, streams := [s], fault := none }] }

/-- May a group waiting on a page go on (R223): no walk of the page is left in its tile, and there is a place for one? -/
def Dev.walkDone (d : Dev) (t ctx page : Nat) : Bool :=
  d.missRoom t && !d.walks.any fun w => w.tile = t && w.ctx = ctx && w.page = page

/-- Invalidating every cached translation of a context that overlaps a span, in the partition's tiles and cores (R221). -/
def Dev.invalXlat (d : Dev) (p ctx page pages : Nat) : Dev :=
  let hit (x : Xent) : Bool := x.ctx = ctx && x.page < page + pages && page < x.page + x.pages
  let ts := 48 :: d.tiles p
  { d with
    rcache := smapMap (fun t l => if ts.contains t then l.filter (fun x => !hit x) else l) d.rcache
    cores := smapMap (fun k c => if ts.contains (k / 16) then { c with tlb := c.tlb.filter (fun x => !hit x) } else c) d.cores }

/-! ### The fault queue (R224 to R228) -/

def Dev.fqSize (d : Dev) (p : Nat) : Nat := 2 ^ d.get fXltFqCtlLog2Size p
def Dev.fqProd (d : Dev) (p : Nat) : Nat := d.get fXltFqProdProd p
def Dev.fqCons (d : Dev) (p : Nat) : Nat := d.get fXltFqConsCons p
def Dev.fqUsed (d : Dev) (p : Nat) : Nat := (d.fqProd p + 2 ^ 32 - d.fqCons p) % 2 ^ 32

/-- The address of record r's entry. -/
def Dev.fqAt (d : Dev) (p r : Nat) : Nat := d.get fXltFqBaseBase p * 4096 + r % d.fqSize p * 64

/-- A record's words 0 to 6; word 7 is its PHASE. -/
def Dev.fqWrite (d : Dev) (p r : Nat) (ws : List Nat) : Dev :=
  let phase := r / d.fqSize p % 2
  d.store (d.partRq p) (d.fqAt p r) ((List.range 7).flatMap (fun i => leBytes 8 (ws.getD i 0)) ++ leBytes 8 phase)

/-- Taking the next record number and writing it; a new record raises the fault interrupt when INT_EN is 1. -/
def Dev.fqPush (d : Dev) (p : Nat) (ws : List Nat) : Dev :=
  let r := d.fqProd p
  let d := (d.fqWrite p r ws).set fXltFqProdProd ((r + 1) % 2 ^ 32) p
  if d.get fXltFqCtlIntEn p = 1 then d.partIrq true p else d

/-- The ACCESS bits of an access: read, write, atomic. -/
def accessBits : Access → Nat
  | .read => 1
  | .write => 2
  | .atomic => 4

def FaultWait.words (f : FaultWait) : List Nat :=
  [f.va, f.ctx + f.cause * 4096 + f.access * 65536 + (if f.fill then 2 ^ 19 else 0) + 2 ^ 32,
   f.seen.toNat, f.span, f.spanPages, f.q, f.time.toNat]

/-- A fault of these causes stays pending until it is resolved (R225). -/
def causePends (c : Nat) : Bool := c = causeNotMapped || c = causeRights

/-- Is record number r at or above CONS and below PROD, so that its entry may be rewritten (R225)? -/
def Dev.fqOpen (d : Dev) (p r : Nat) : Bool :=
  (r + 2 ^ 32 - d.fqCons p) % 2 ^ 32 < d.fqUsed p

/-- A new record joins the pending ones; the partition tracks for coalescing at most 256 of those that CONS has not passed
(R225). -/
def Dev.track (d : Dev) (p : Nat) (f : FaultWait) (r : Nat) : Dev :=
  if !causePends f.cause then d
  else
    let x := d.part p
    let room := (x.pendFaults.countP fun y => y.tracked && d.fqOpen p y.num) < 256
    d.setPart p { x with pendFaults := x.pendFaults ++
      [{ num := r, ctx := f.ctx, cause := f.cause, span := f.span, spanPages := f.spanPages, tracked := room }] }

/-- Writing a fault's record if an entry is free for tenants (R228), else false. -/
def Dev.fqRecord (d : Dev) (p : Nat) (f : FaultWait) : Option Dev :=
  if d.fqUsed p + 2 ≤ d.fqSize p then
    let r := d.fqProd p
    let d := d.fqPush p f.words
    some (d.track p f r)
  else none

/-- Streams stalled for want of an entry (XLT_FQ_OVF). -/
def Dev.fqStalled (d : Dev) (p : Nat) : Dev :=
  d.set fXltFqOvfStalled (min 0xFFFF (((d.part p).waitFaults.filter (·.stalled.isSome)).length)) p

/-- A fault (R225, R226): it coalesces into its key's newest pending record while that is at or above CONS, or takes a new
record, or waits for an entry. -/
def Dev.fault (d : Dev) (p : Nat) (f : FaultWait) : Dev :=
  let x := d.part p
  let pending := causePends f.cause
  let key (r : FaultRec) : Bool :=
    r.ctx = f.ctx && r.cause = f.cause && r.span = f.span && r.spanPages = f.spanPages
  match (if pending then (x.pendFaults.filter (fun r => r.tracked && key r && d.fqOpen p r.num)).getLast? else none) with
  | some r =>
    let at_ := d.fqAt p r.num
    let w := d.peekWord (at_ + 8)
    let count := min (2 ^ 32 - 1) (natBitsAt w 32 32 + 1)
    let w := natSetBits w 32 32 count
    let w := natSetBits w 16 3 (natBitsAt w 16 3 ||| f.access)
    let w := if f.fill then natSetBits w 19 1 1 else w
    d.storeWord (d.partRq p) (at_ + 8) w
  | none =>
    if x.waitFaults ≠ [] then
      ((d.bump fXltFqOvfOvf 1 p).setPart p { x with waitFaults := x.waitFaults ++ [f] }).fqStalled p
    else match d.fqRecord p f with
      | some d => d
      | none => ((d.bump fXltFqOvfOvf 1 p).setPart p { x with waitFaults := x.waitFaults ++ [f] }).fqStalled p

/-- Waiting faults take records in their order, as entries free (R226). -/
def Dev.fqDrain (p : Nat) : Nat → Dev → Dev
  | 0, d => d
  | n + 1, d =>
    match (d.part p).waitFaults with
    | [] => d
    | f :: rest =>
      match (d.setPart p { d.part p with waitFaults := rest }).fqRecord p f with
      | none => d
      | some d => Dev.fqDrain p n (d.fqStalled p)

/-- Resolving a key (R227): its pending records end, and every stream stalled on it walks again. A fault of the key that waits for an entry
stays to be recorded, but stalls no stream any more (R226). -/
def Dev.resolveKey (d : Dev) (p ctx cause span pages : Nat) : Dev :=
  let x := d.part p
  let keep (r : FaultRec) : Bool := !(r.ctx = ctx && r.cause = cause && r.span = span && r.spanPages = pages)
  let free (r : FaultWait) : FaultWait :=
    if r.ctx = ctx && r.cause = cause && r.span = span && r.spanPages = pages then { r with stalled := none } else r
  let d := (d.setPart p { x with pendFaults := x.pendFaults.filter keep, waitFaults := x.waitFaults.map free }).fqStalled p
  { d with walks := d.walks.map fun w =>
      if w.ctx = ctx && w.fault = some (cause, span, pages) then { w with fault := none } else w }

/-- The walks stalled on a key. -/
def Dev.keyWalks (d : Dev) (ctx cause span pages : Nat) : List Walk :=
  d.walks.filter fun w => w.ctx = ctx && w.fault = some (cause, span, pages)

end Sys2Proof.Machine
end

