-- ==== Sys2Proof/Machine/PartOps.lean ====
section
/-! DEFINITION. What a partition owns and gives back: its commit reserve (12 R295, R296), host cores (13 R311), metered cycles
(R307), and the end of a dissolution (12 R293, R294). -/

namespace Sys2Proof.Machine

open Sys2Proof

/-! ### The commit reserve -/

def Dev.reserveAt (d : Dev) (p i : Nat) : Nat := d.get fPrtReserveBaseBase p * 4096 + 8 * i

/-- A take pops word FREE - 1 (R295); none when FREE is 0. -/
def Dev.reserveTake (d : Dev) (p : Nat) : Option Nat × Dev :=
  let free := d.get fPrtReserveStatFree p
  if free = 0 then (none, d)
  else
    let g := natBitsAt (d.peekWord (d.reserveAt p (free - 1))) 0 36 * 65536
    let d := d.set fPrtReserveStatFree (free - 1) p
    (some g, d.set fPrtReserveStatLowWater (min (d.get fPrtReserveStatLowWater p) (free - 1)) p)

/-- Returning a granule pushes it at word FREE (R295). -/
def Dev.reservePush (d : Dev) (p g : Nat) : Dev :=
  let free := d.get fPrtReserveStatFree p
  (d.storeWord (d.partRq p) (d.reserveAt p free) (g / 65536)).set fPrtReserveStatFree (free + 1) p

def Dev.reservePushAll (d : Dev) (p : Nat) (gs : List Nat) : Dev := gs.foldl (fun d g => d.reservePush p g) d

/-! ### Host cores -/

/-- The logical host cores of a partition (R289). -/
def Dev.hcores (d : Dev) (p : Nat) : List Nat :=
  bitsBelow 64 (d.word .prtHcores0 p 0) ++ (bitsBelow 32 (d.word .prtHcores1 p 0)).map (64 + ·)

/-- The partition tag of a hart (R312): the partition, not FREE, that names it. -/
def Dev.hartPart (d : Dev) (h : Nat) : Option Nat :=
  (List.range 48).find? fun p => d.partState p ≠ partFree && (d.hcores p).contains h

/-- A host core leaves reset in M-mode, and its firmware enters HS-mode at PRT_HCORE_ENTRY (R311). -/
def Dev.hartStart (p : Nat) (d : Dev) (h : Nat) : Dev :=
  d.setHost { d.host with
    running := insertNat d.host.running h, entry := smapPut d.host.entry h (d.get fPrtHcoreEntryEntry p * 4) }

/-- A partition's cores leave reset, but those that have failed. -/
def Dev.hartsStart (d : Dev) (p : Nat) : Dev :=
  ((d.hcores p).filter fun h => !d.host.failed.contains h).foldl (Dev.hartStart p) d

/-- A partition's cores return to reset: their FZCTX and IMSIC files are reset (R311, R313). -/
def Dev.hartsStop (d : Dev) (p : Nat) : Dev :=
  let hs := d.hcores p
  d.setHost { d.host with
    running := d.host.running.filter (fun h => !hs.contains h),
    entry := hs.foldl (fun m h => smapDel m h) d.host.entry,
    imsic := d.host.imsic.filter (fun x => !hs.contains x.1),
    fzctx := hs.foldl (fun m h => smapDel m h) d.host.fzctx }

/-! ### Units of a carve-out (R290) -/

def Dev.hbmUnits (d : Dev) (p : Nat) : List Nat :=
  (List.range 24).flatMap fun k => (bitsBelow 64 (d.word .prtHbmUnits p k)).map (64 * k + ·)

def Dev.lpUnits (d : Dev) (p : Nat) : List Nat :=
  (List.range 32).flatMap fun k => (bitsBelow 64 (d.word .prtLpmUnits p k)).map (64 * k + ·)

/-- The address of the first byte of a unit; LPDDR5X units count from 2,048. -/
def unitBase (u : Nat) : Nat := if u < 2048 then u * gib else lpBase + (u - 2048) * gib

/-- The Tempo instances whose dies hold lines of a unit (R294): the three bridges of its quadrant, all of them when its
block is floor-wide, or the host complex. -/
def Dev.unitDies (d : Dev) (u : Nat) : List Nat :=
  if 2048 ≤ u then [12]
  else if d.floorWide (u % 384 / 3) then List.range 12
  else (List.range 3).map (3 * (u / 384) + ·)

/-- Putting a unit on the scrub lists of its dies, which scrub in ascending unit index (R294). -/
def insertScrub : List Scrub → Scrub → List Scrub
  | [], x => [x]
  | y :: t, x => if y.inst = x.inst && x.unit < y.unit then x :: y :: t else y :: insertScrub t x

def Dev.scrubUnit (d : Dev) (p u : Nat) : Dev :=
  let xs := (d.unitDies u).map fun n => ({ inst := n, unit := u, part := p, next := 0 } : Scrub)
  d.setTempo { d.tempo with scrubs := xs.foldl insertScrub d.tempo.scrubs }

/-- SCRUB_LEFT of a partition: units of its former carve-out with a die still scrubbing. -/
def Dev.scrubLeft (d : Dev) (p : Nat) : Dev :=
  let us := ((d.tempo.scrubs.filter fun x => x.part = p).map Scrub.unit).eraseDups
  d.set fPrtStatScrubLeft (min 4095 us.length) p

/-! ### Cores -/

/-- A core as built, running nothing. -/
def ArrayHw.good : ArrayHw := { failedCols := [], rowFailed := false, spareLost := false, pendingCutin := false }

def Core.built : Core :=
  { lanesFailed := [], laneSpareLost := false, lanePending := false, arrayHw := List.replicate 4 ArrayHw.good,
    stopped := false, nearUnits := 0, near := [], invClean := false, stale := false, tlb := [], run := none }

def Dev.core (d : Dev) (k : Nat) : Core := smapGet d.cores k Core.built
def Dev.setCore (d : Dev) (k : Nat) (c : Core) : Dev := { d with cores := smapPut d.cores k c }

/-- The device logical cores of a tile. -/
def tileCores (t : Nat) : List Nat := (List.range 16).map (16 * t + ·)

/-- Discarding what a core runs, its near cache invalidated without writing back (R157, R264). -/
def Dev.clearCore (d : Dev) (k : Nat) : Dev :=
  d.setCore k { d.core k with run := none, near := [], stopped := false, invClean := false, stale := false, tlb := [] }

def Dev.clearTile (d : Dev) (t : Nat) : Dev :=
  { (tileCores t).foldl Dev.clearCore d with rcache := smapDel d.rcache t }

/-- The cycles of the attempt that ends on a core go to PREEMPT_CYCLES when a pre-emption kill ended it (R307). -/
def Dev.endAttempt (d : Dev) (ctx k : Nat) (preempted : Bool) : Dev :=
  let n := smapGet d.tempo.attempt k 0
  let d := if preempted then d.meter ctx fun m => { m with preemptCycles := m.preemptCycles + BitVec.ofNat 64 n } else d
  d.setTempo { d.tempo with attempt := smapDel d.tempo.attempt k }

/-! ### Capability changes -/

/-- The Capability Table changes in one odd period: GENERATION rises by 2 (R414). -/
def Dev.capChange (d : Dev) : Dev := d.setMinuet { d.minuet with generation := d.minuet.generation + 2 }

/-! ### The end of a dissolution (R293) -/

/-- What is left of a partition that has been dissolved: its cycle counter, and signals and error stores on their way. -/
def Part.cleared (x : Part) : Part :=
  { Part.initial with cycles := x.cycles, signals := x.signals, errors := x.errors }

/-- Steps 2 to 5, once every queue is FREE: the partition's shared-cache lines are written back and invalidated, near caches
invalidated, its fault queue takes no more records, tiles and host cores are released, its units are scrubbed, STATE is
FREE. -/
def Dev.dissolveRest (d : Dev) (p : Nat) : Dev :=
  let ts := d.tiles p
  let d := d.setCoh { d.coh with shc := d.coh.shc.filter (fun x => x.part ≠ p) }
  let d := ts.foldl Dev.clearTile d
  let d := d.hartsStop p
  let d := (d.hbmUnits p).foldl (fun d u => d.scrubUnit p u) d
  let d := (d.lpUnits p).foldl (fun d u => d.scrubUnit p (2048 + u)) d
  let d := { d with walks := d.walks.filter (fun w => !(d.ctxIn p w.ctx)) }
  let d := { d with queues := d.queues.filter (fun x => !(d.qIn p x.1)) }
  let d := (d.setPart p (d.part p).cleared).scrubLeft p
  let d := ((d.set fMntNegStatEnabled 0 p).set fMntNegStatResult 0 p).set fXltFqOvfStalled 0 p
  (((d.set fPrtStatState partFree p).set fPrtStatBusy 0 p).set fPrtStatResult 0 p).capChange

end Sys2Proof.Machine
end

