-- ==== Sys2Proof/Machine/QueueOps.lean ====
section
/-! DEFINITION. Queues, commands and their endings: handles (10 R239 to R242), fences (11 R267 to R273), the commit arbiter's kills
(R280 to R283), errors and the stopped queue (10 R259, R260), destroying a queue (R266), and partition re-initialisation
(16 R371, R372). -/

namespace Sys2Proof.Machine

open Sys2Proof

/-! ### Error codes of the Caller (16 R366) -/

def errExecTimeout : Nat := 0x0101
def errWaitTimeout : Nat := 0x0102
def errKilledAbort : Nat := 0x0103
def errQueueDestroyed : Nat := 0x0104
def errProducerLost : Nat := 0x0105
def errPartitionReset : Nat := 0x0106
def errHandle : Nat := 0x0201
def errRangeFault : Nat := 0x0202
def errFenceOverflow : Nat := 0x0204
def errReserve : Nat := 0x0205
def errUncorrectable : Nat := 0x0302
def errUpstream : Nat := 0x0601
def errDeviceLost : Nat := 0x0701

/-! ### Queues and commands -/

def Queue.initial : Queue :=
  { st := .free, part := 0, ctx := 0, cls := .compute, prio := 0, priv := false, log2 := 4, execTimeout := 0,
    waitTimeout := 0, ring := 0, errFence := none, head := 0, tail := 0, retired := 0, stopCode := 0, stopSlot := 0,
    badTail := false, foreign := 0, cmds := [], recent := [] }

def Dev.queue (d : Dev) (q : Nat) : Queue := smapGet d.queues q Queue.initial
def Dev.setQueue (d : Dev) (q : Nat) (x : Queue) : Dev := { d with queues := smapPut d.queues q x }

/-- The waiting faults of ended streams stay, but no stream waits on them (R226). -/
def FaultWait.unstall (mine : Strm → Bool) (f : FaultWait) : FaultWait := { f with stalled := f.stalled.filter fun s => !mine s }

def Dev.unstall (mine : Strm → Bool) (d : Dev) (p : Nat) : Dev :=
  if (d.part p).waitFaults = [] then d
  else
    let x := d.part p
    (d.setPart p { x with waitFaults := x.waitFaults.map (FaultWait.unstall mine) }).fqStalled p

/-- Ending streams of a queue: they wait on no walk any more, and on no record's entry. -/
def Dev.endStreams (d : Dev) (q : Nat) (mine : Strm → Bool) : Dev :=
  let d := Dev.unstall mine d (d.queue q).part
  let ws := d.walks.map fun w => { w with streams := w.streams.filter (fun s => !mine s) }
  { d with walks := ws.filter (fun w => w.streams ≠ []) }

/-- Ending a command's streams. -/
def Dev.dropStreams (d : Dev) (q slot : Nat) : Dev := d.endStreams q fun s => s.q = q && s.slot = slot && !s.slotRead

/-- Ending a command's streams on one core, whose troupe has ended. -/
def Dev.dropCoreStreams (d : Dev) (q slot k : Nat) : Dev :=
  d.endStreams q fun s => s.q = q && s.slot = slot && (match s.who with
    | some w => w.core.val = k
    | none => false)

def Dev.cmd? (d : Dev) (q slot : Nat) : Option Cmd := (d.queue q).cmds.find? fun c => c.slot = slot

def Queue.putCmd (x : Queue) (c : Cmd) : Queue := { x with cmds := x.cmds.map fun y => if y.slot = c.slot then c else y }
def Dev.putCmd (d : Dev) (q : Nat) (c : Cmd) : Dev := d.setQueue q ((d.queue q).putCmd c)

/-- Word i of a slot (R250). -/
def Cmd.word (c : Cmd) (i : Nat) : Nat := (c.words.getD i 0).toNat

/-- TYPE and INDEP (R250, R251). -/
def Cmd.type (c : Cmd) : Nat := natBitsAt (c.word 0) 0 8
def Cmd.indep (c : Cmd) : Bool := (c.word 0).testBit 8

def tyKernel : Nat := 1
def tyCopy : Nat := 2
def tyFill : Nat := 3
def tyCollective : Nat := 4
def tyWait : Nat := 5
def tySignal : Nat := 6
def tyRangeSync : Nat := 7
def tyMarker : Nat := 8

/-- A command with an INPLACE output is non-restartable (R281, R282). -/
def Cmd.restartable (c : Cmd) : Bool := c.outputs.all fun o => o.mode ≠ .inplace

/-- Every queue's commands, with their queue. -/
def Dev.allCmds (d : Dev) : List (Nat × Cmd) := d.queues.flatMap fun x => x.2.cmds.map fun c => (x.1, c)

/-! ### Handles (R240, R241) -/

def rightRead : Nat := 1
def rightWrite : Nat := 2
def rightExec : Nat := 4
def rightFence : Nat := 8

def hrefNone : Nat := 0xFFFFFFFF
def isNone (href : Nat) : Bool := natBitsAt href 0 32 = hrefNone

/-- How a relocation ends: an address; a failure; a poisoned line met on the way (R216). -/
inductive Reloc where
  | ok (va : Nat)
  | bad
  | poison
  deriving DecidableEq, Repr

/-- The lines that relocating a handle reads: the context descriptor's head and the entry (R239, R240). -/
def Dev.handleAt (d : Dev) (p ctx h : Nat) : Nat :=
  natBitsAt (d.peekWord (d.ctxAt p ctx)) 0 40 * 4096 + 16 * h

/-- Relocating an HREF to VA + offset (R241). -/
def Dev.relocate (d : Dev) (p ctx href rights extent align : Nat) : Reloc :=
  let h := natBitsAt href 0 32
  let off := natBitsAt href 32 32
  let (desc, bad) := d.peek (d.ctxAt p ctx) 16
  if bad then .poison
  else if leNat ((desc.drop 8).take 4) ≤ h then .bad
  else
    let (e, bad) := d.peek (d.handleAt p ctx h) 16
    if bad then .poison
    else
      let w0 := leNat (e.take 8)
      let w1 := leNat (e.drop 8)
      let va := natBitsAt w0 0 57 + off
      if !(w1.testBit 48) || natBitsAt w1 49 4 &&& rights ≠ rights || off + extent > natBitsAt w1 0 48 || va % align ≠ 0
      then .bad else .ok va

/-- The Caller's translation of a fence (R269, R259): READ only; it never stalls and writes no fault record. -/
def Dev.fenceOf (d : Dev) (p ctx va : Nat) : Option FencePlace :=
  match d.walk p ctx (va / 4096) with
  | (.entry x, _) =>
    if !x.read || 2 ^ 57 ≤ va then none
    else match x.window with
      | some w => some (.remote w (va - x.rangePage * 4096))
      | none => if isMemory (x.phys va) then some (.local_ (x.phys va)) else none
  | (.fault _, _) => none

/-- The place of a fence HREF as it stands now: FENCE right and 64-byte alignment (R242). -/
def Dev.fencePlace (d : Dev) (p ctx href : Nat) : Option FencePlace :=
  if isNone href then none
  else match d.relocate p ctx href rightFence 64 64 with
    | .ok va => d.fenceOf p ctx va
    | _ => none

/-! ### Fences (R267 to R273) -/

/-- Words 0 to 3 of a fence line. -/
def lineWord (x : Line) (i : Nat) : Nat := natBitsAt x.toNat (64 * i) 64

def lineOfWords (ws : List Nat) : Line := BitVec.ofNat 512 (leNat (ws.flatMap (leBytes 8)))

/-- The line a poisoned fence is rewritten with (R270): VALUE 0, ERR with UNCORRECTABLE_MEMORY, posted, NOTIFY. -/
def fenceRewrite : Line := lineOfWords [0, errUncorrectable + 2 ^ 16 + 2 ^ 17 + 2 ^ 46]

/-- A fence with an error stored, unless it carries one already (R271). -/
def fenceError (x : Line) (code q slot : Nat) (posted : Bool) : Line :=
  if (lineWord x 1).testBit 16 then x
  else
    let w1 := natSetBits (lineWord x 1) 0 17 (code + 2 ^ 16)
    let w1 := natSetBits (natSetBits w1 32 14 (if posted then 0 else q)) 46 1 (if posted then 1 else 0)
    let w2 := natSetBits (lineWord x 2) 0 32 (if posted then 0 else slot)
    BitVec.ofNat 512 (natSetBits (natSetBits x.toNat 64 64 w1) 128 64 w2)

/-- An absolute signal (R270): the maximum rule, and LOW_COUNT. -/
def fenceAbsolute (x : Line) (v : Nat) : Line :=
  if v < lineWord x 0 then
    let w3 := lineWord x 3
    BitVec.ofNat 512 (natSetBits x.toNat 192 64 (natSetBits w3 0 32 (min (2 ^ 32 - 1) (natBitsAt w3 0 32 + 1))))
  else BitVec.ofNat 512 (natSetBits x.toNat 0 64 v)

/-- A relative signal (R270): refused with FENCE_OVERFLOW where it would pass 2^64 - 1. -/
def fenceRelative (x : Line) (v q slot : Nat) (posted : Bool) : Line :=
  if lineWord x 0 + v ≥ 2 ^ 64 then fenceError x errFenceOverflow q slot posted
  else BitVec.ofNat 512 (natSetBits x.toNat 0 64 (lineWord x 0 + v))

/-- What a signal or error store makes of a fence's line. -/
def FenceOp.apply : FenceOp → Line → Line
  | .absolute _ v _ _, x => fenceAbsolute x v.toNat
  | .relative _ v q slot, x => fenceRelative x v.toNat q slot false
  | .error _ code q slot posted, x => fenceError x code q slot posted

/-- Is it a post of CLR_FENCE_POST (R278)? -/
def FenceOp.posted : FenceOp → Bool
  | .error _ _ _ _ posted => posted
  | _ => false

def FenceOp.place : FenceOp → FencePlace
  | .absolute pl _ _ _ => pl
  | .relative pl _ _ _ => pl
  | .error pl _ _ _ _ => pl

/-! ### Signals and error stores on their way -/

def Dev.queueSignal (d : Dev) (p : Nat) (op : FenceOp) : Dev :=
  d.setPart p { d.part p with signals := (d.part p).signals ++ [op] }

def Dev.queueError (d : Dev) (p : Nat) (op : FenceOp) : Dev :=
  d.setPart p { d.part p with errors := (d.part p).errors ++ [op] }

/-- The place an ended command's error goes to (R242, R259): its completion fence, relocated at dispatch or now, else the
queue's error fence, translated now. A slot whose first line was poisoned names no fence. -/
def Dev.errPlace (d : Dev) (x : Queue) (c : Cmd) : Option FencePlace :=
  let own := if c.fence ≠ none then c.fence
    else if c.body = .undispatched && c.words ≠ [] then d.fencePlace x.part x.ctx (c.word 1) else none
  match own with
  | some pl => some pl
  | none => x.errFence.bind fun va =>
      match d.fenceOf x.part x.ctx va with
      | some (.local_ pa) => some (.local_ pa)
      | _ => none

/-- The SIG_FENCE of a SIGNAL (R284). -/
def Dev.sigPlace (d : Dev) (x : Queue) (c : Cmd) : Option FencePlace :=
  match c.body with
  | .signal _ pl _ => some pl
  | .undispatched => if c.type = tySignal then d.fencePlace x.part x.ctx (c.word 3) else none
  | _ => none

def Dev.storeError (d : Dev) (q code : Nat) (c : Cmd) : Dev :=
  let x := d.queue q
  let d := match d.errPlace x c with
    | some pl => d.queueError x.part (.error pl code q c.slot false)
    | none => d
  match d.sigPlace x c with
  | some pl => d.queueError x.part (.error pl code q c.slot false)
  | none => d

/-! ### Retiring -/

/-- The queue after a command has retired: RETIRED is the lowest slot not yet retired (R246); the last 16 retirements are
kept (R244). -/
def Queue.retire (x : Queue) (slot : Nat) (committed : Bool) : Queue :=
  let cmds := x.cmds.filter fun c => c.slot ≠ slot
  { x with
    cmds := cmds
    retired := match cmds.head? with
      | some c => BitVec.ofNat 32 c.slot
      | none => x.head
    recent := (x.recent ++ [(slot, committed)]).drop (x.recent.length + 1 - 16) }

/-- The operation of CLR_QCTL ends (R244). -/
def Dev.qctlDone (d : Dev) (p result : Nat) : Dev :=
  let d := d.setPart p { d.part p with qop := none }
  ((d.set fClrQctlStatBusy 0 p).set fClrQctlStatResult result p).bumpWrap fClrQctlStatOps p

/-- RESULT values of CLR_QCTL_STAT. -/
def qctlRefused : Nat := 1
def qctlComplete : Nat := 2
def qctlKilled : Nat := 3
def qctlNotPresent : Nat := 4
def qctlEscalated : Nat := 5

/-- What an ABORT of a command that has left its queue reports (R244, R283): one of the last 16 retirements, else none. -/
def Queue.retiredResult (x : Queue) (n : Nat) : Nat :=
  match x.recent.find? (fun r => r.1 = n) with
  | some (_, true) => qctlComplete
  | some (_, false) => 0
  | none => qctlNotPresent

/-- Are all queues of a partition FREE? -/
def Dev.queuesFree (d : Dev) (p : Nat) : Bool := d.queues.all fun x => !(d.qIn p x.1) || x.2.st = .free

/-- A DESTROYING queue with no command left becomes FREE and its DESTROY is DONE (R266); a dissolution goes on when every
queue is FREE (R293). Of the doorbell page's fields FOREIGN alone is kept (DESIGN CHOICE, log 126). -/
def Dev.settleQueue (d : Dev) (q : Nat) : Dev :=
  let x := d.queue q
  if x.st = .destroying && x.cmds = [] then
    let p := x.part
    let d := d.setQueue q { Queue.initial with part := p, foreign := x.foreign }
    let d := if (d.part p).qop = some (.destroy q) then d.qctlDone p 0 else d
    if d.partState p = partDissolving && d.queuesFree p && (d.part p).reinit = none then
      (if (d.part p).qop = none then d else d.qctlDone p qctlRefused).dissolveRest p
    else d
  else d

/-- Do two outputs overlap? -/
def Output.overlaps (a b : Output) : Bool := a.va < b.va + b.len && b.va < a.va + a.len

/-- Is a COW or OVERWRITE output of a command overlapped by an output of a command of its context dispatched before it and
not yet committed or ended (R233)? -/
def Dev.overlapWaits (d : Dev) (q : Nat) (c : Cmd) : Bool :=
  let ctx := (d.queue q).ctx
  d.allCmds.any fun (q2, c2) =>
    (d.queue q2).ctx = ctx && c2.dispatched ≠ 0 && c2.dispatched < c.dispatched && c2.st ≠ .committed
      && c.outputs.any fun o => o.mode ≠ .inplace && c2.outputs.any fun o2 => o.overlaps o2

/-- Commands that wait only for an overlap that is gone become READY (R233, R257). -/
def Dev.releaseOverlaps (d : Dev) : Dev :=
  d.allCmds.foldl (fun d (q, c) =>
    match c.body with
    | .wait _ _ _ => d
    | _ =>
      if c.st = .waiting && !d.overlapWaits q c then
        let d := d.tick
        d.putCmd q { c with st := .ready, readyAt := d.clock }
      else d) d

/-- Answers over Reel to an attempt that is over are no longer waited for. Fence signals and error stores outlive their command
(R339). -/
def Dev.forgetRemotes (d : Dev) (q slot : Nat) : Dev :=
  d.setReel { d.reel with remotes := d.reel.remotes.filter fun r => !(r.q = q && r.slot = slot) || (match r.kind with
    | .fence _ => true
    | _ => false) }

/-- A command ends with a code (R259) and leaves its queue. -/
def Dev.endOne (d : Dev) (q slot code : Nat) : Dev :=
  match d.cmd? q slot with
  | none => d
  | some c =>
    let d := ((d.storeError q code c).dropStreams q slot).forgetRemotes q slot
    d.setQueue q ((d.queue q).retire slot false)

/-- The commands of a queue that a stop ends with UPSTREAM_ERROR: HELD, in DISPATCH, WAITING and READY (R260). -/
def Queue.notRunning (x : Queue) : List Nat :=
  (x.cmds.filter fun c => c.st = .held || c.st = .dispatch || c.st = .waiting || c.st = .ready).map Cmd.slot

/-- The queue stops (R260): STOP_CODE and STOP_SLOT name the first command that stopped it. -/
def Dev.stopQueue (d : Dev) (q slot code : Nat) : Dev :=
  let x := d.queue q
  let d := if x.st = .active then
      d.setQueue q { x with st := .stopped, stopCode := code, stopSlot := BitVec.ofNat 32 slot } else d
  if x.st = .destroying then d
  else (x.notRunning.filter (· ≠ slot)).foldl (fun d s => d.endOne q s errUpstream) d

/-- A command ends without committing: an ABORT that had reached the arbiter before reads KILLED (R283). -/
def Dev.endCmd (d : Dev) (q slot code : Nat) : Dev :=
  let d := (d.endOne q slot code).stopQueue q slot code
  let p := (d.queue q).part
  let d := if (d.part p).qop = some (.abort q slot true) then d.qctlDone p qctlKilled else d
  (d.settleQueue q).releaseOverlaps

/-! ### Waiting for a fence (R274) -/

/-- How the check of R274 decides. -/
inductive WaitSays where
  | keep | release | upstream
  deriving DecidableEq, Repr

def Dev.checkWait (d : Dev) (pl : FencePlace) (target : Nat) : WaitSays :=
  match pl with
  | .remote _ _ => .keep
  | .local_ pa =>
    let (x, bad) := d.peekLine (pa / 64)
    if bad || d.hbm.bad.contains (pa / 64) then .keep
    else if (lineWord x 1).testBit 16 then .upstream
    else if target ≤ lineWord x 0 then .release else .keep

/-- Fence watch entries in use (R265). -/
def Dev.watches (d : Dev) : Nat := (d.allCmds.filter fun x => x.2.watch).length

/-- READY, in order of readiness (R262). -/
def Dev.makeReady (d : Dev) (q : Nat) (c : Cmd) : Dev :=
  let d := d.tick
  d.putCmd q { c with st := .ready, readyAt := d.clock, watch := false }

/-- The check of a WAIT (R274): it goes on, or ends with UPSTREAM_ERROR, or waits. -/
def Dev.decideWait (d : Dev) (q : Nat) (c : Cmd) : Dev :=
  match c.body with
  | .wait _ pl target =>
    match d.checkWait pl target.toNat with
    | .release => d.makeReady q c
    | .upstream => d.endCmd q c.slot errUpstream
    | .keep => d.putCmd q { c with st := .waiting, watch := c.watch || d.watches < 65536 }
  | _ => d

/-- The check of R274 at a change of a fence's line, for the WAITs whose watch entries hold it. -/
def Dev.wake (d : Dev) (n : Nat) : Dev :=
  d.allCmds.foldl (fun d x =>
    match d.cmd? x.1 x.2.slot with
    | none => d
    | some c =>
      match c.body with
      | .wait _ (.local_ pa) _ => if c.st = .waiting && c.sent = none && c.watch && pa / 64 = n then d.decideWait x.1 c else d
      | _ => d) d

/-- A fence's line after a signal or an error store (R270): a poisoned line is rewritten whole. -/
def FenceOp.line (op : FenceOp) (x : Line) (bad : Bool) : Line := if bad then fenceRewrite else op.apply x

/-- A change of VALUE or ERR is shown to the WAITs that watch the fence (R274), and raises the fence interrupt when NOTIFY is 1 (R273). -/
def Dev.fenceChanged (d : Dev) (p n : Nat) (x : Line) (bad : Bool) (y : Line) : Dev :=
  if bad || lineWord x 0 ≠ lineWord y 0 || natBitsAt (lineWord x 1) 0 17 ≠ natBitsAt (lineWord y 1) 0 17 then
    let d := d.wake n
    if (lineWord y 1).testBit 17 then d.partIrq false p else d
  else d

/-- One atomic operation on a fence's line (R270, R272), at its home or the bridge that serves the requester; none where the request must
wait for the line or finds no token (R175, R306). -/
def Dev.applyFence (d : Dev) (rq : Rq) (p : Nat) (op : FenceOp) (pa : Nat) : Option Dev :=
  (d.pocUpdate rq (pa / 64) fun x bad => some (op.line x bad)).map fun r =>
    if d.backed pa then r.2.fenceChanged p (pa / 64) r.1.1 r.1.2 (op.line r.1.1 r.1.2) else r.2

/-- The Caller's request for a fence operation (R306): of the context of the queue whose command it is of. -/
def Dev.fenceRq (d : Dev) (p : Nat) (op : FenceOp) : Rq :=
  let mine (q : Nat) : Rq := if (d.queue q).st ≠ .free && (d.queue q).part = p then d.callerRq p (d.queue q).ctx else d.partRq p
  match op with
  | .absolute _ _ q _ | .relative _ _ q _ | .error _ _ q _ false => mine q
  | .error _ _ _ _ true => d.partRq p

/-! ### Records of accesses that cannot be served -/

/-- A record with CAUSE TABLE_ERROR or WINDOW, which stalls no stream (R226): its span is open (log 7). -/
def Dev.errorRecord (d : Dev) (p q cause va access : Nat) (fill : Bool) : Dev :=
  let ctx := (d.queue q).ctx
  let (a, d) := d.draw
  let (b, d) := d.draw
  d.fault p
    { ctx := ctx, cause := cause, span := natBitsAt a.toNat 0 45, spanPages := natBitsAt b.toNat 0 45, va := va,
      access := access, fill := fill, q := q, seen := BitVec.ofNat 64 (d.syncSeq p ctx), time := d.cycleCounter p, stalled := none }

/-! ### Kills -/

def KillWhy.isEnd : KillWhy → Bool
  | .ends _ => true
  | _ => false

/-- A kill is sent to the arbiter (R280): the first that ends the command stands, and it prevails over one that only makes it run
again (R281, R379). A numbered command has left its queue, beyond every kill (R279). -/
def Dev.sendKill (d : Dev) (q slot : Nat) (why : KillWhy) : Dev :=
  match d.cmd? q slot with
  | none => d
  | some c =>
    match c.sent.or c.kill with
    | none => d.putCmd q { c with sent := some why }
    | some w => if why.isEnd && !w.isEnd then d.putCmd q { c with sent := some why } else d

/-- An error of a command's own ends it (R46): its kill goes to the arbiter. -/
def Dev.raise (d : Dev) (q slot code : Nat) : Dev := d.sendKill q slot (.ends code)

def orderEngine (o : Order) (e : EngineRef) : EngineRef :=
  if e.acked then e else if e.order = .kill then e else { e with order := o }

/-- Drain or kill orders to every engine of a command (R264). -/
def Dev.order (d : Dev) (q slot : Nat) (o : Order) : Dev :=
  match d.cmd? q slot with
  | none => d
  | some c => d.putCmd q { c with engines := c.engines.map (orderEngine o) }

/-- The shadows of a command return to the reserve (R236). -/
def Dev.returnShadows (d : Dev) (q slot : Nat) : Dev :=
  match d.cmd? q slot with
  | none => d
  | some c =>
    let p := (d.queue q).part
    let d := d.reservePushAll p (c.outputs.flatMap fun o => o.shadows.map Shadow.new)
    d.putCmd q { c with outputs := c.outputs.map fun o => { o with shadows := [] } }

/-- What a command's body is once an attempt of it has been discarded (R54, R281). -/
def Body.restart : Body → Body
  | .kernel k => .kernel { k with next := 0, ended := 0, units := [] }
  | .copy s t rb rs ss ds _ => .copy s t rb rs ss ds 0
  | .fill v t rb rs ds _ => .fill v t rb rs ds 0
  | b => b

/-- A killed restartable command returns to READY (R281, R297, R369, R407). A kill still in flight that ends it stands (R280). -/
def Dev.requeue (d : Dev) (q : Nat) (c : Cmd) : Dev :=
  let d := ((d.dropStreams q c.slot).forgetRemotes q c.slot).tick
  d.putCmd q { c with st := .ready, readyAt := d.clock, engines := [], kill := none, watch := false,
                      sent := if (c.sent.map KillWhy.isEnd).getD false then c.sent else none,
                      body := c.body.restart }

/-- A kill takes its effect once it is recorded and every engine has acknowledged (R264, R283): the shadows return, and
the command ends or goes back to READY (R281, R297, R369). -/
def Dev.settleKill (d : Dev) (q slot : Nat) : Dev :=
  match d.cmd? q slot with
  | none => d
  | some c =>
    match c.kill with
    | none => d
    | some why =>
      if c.engines.any (fun e => !e.acked) then d
      else
        let d := d.returnShadows q slot
        let c := (d.cmd? q slot).getD c
        match why with
        | .ends code => d.endCmd q slot code
        | .preempt => d.requeue q { c with kills := c.kills + 1 }
        | .cutin => if c.restartable then d.requeue q c else d.endCmd q slot errDeviceLost
        | .unitFault =>
          if !c.restartable || c.unitFaults ≥ 2 then d.endCmd q slot errDeviceLost
          else d.requeue q { c with unitFaults := c.unitFaults + 1 }

/-- An engine's state is discarded at its acknowledgement (R264). -/
def Dev.clearEngine (d : Dev) (ctx : Nat) (preempted : Bool) : Engine → Dev
  | .core k => (d.endAttempt ctx k preempted).clearCore k
  | _ => d

/-- Does a pre-emption kill end the attempt (R307)? A unit fault and a cut-in count as one (R369, R407). -/
def Cmd.preempted (c : Cmd) : Bool :=
  match c.kill.or c.sent with
  | some why => !why.isEnd
  | none => false

/-- One engine acknowledges (R264). -/
def Dev.ackEngine (d : Dev) (q slot i : Nat) : Dev :=
  match d.cmd? q slot with
  | none => d
  | some c =>
    match c.engines[i]? with
    | none => d
    | some e =>
      if e.order = .none || e.acked then d
      else
        let d := d.putCmd q { c with engines := c.engines.set i { e with acked := true } }
        (d.clearEngine (d.queue q).ctx c.preempted e.eng).settleKill q slot

/-- Every engine of a command is ended by force: by an ISOLATE reset or a re-initialisation (R370, R371). -/
def Dev.ackAll (d : Dev) (q slot : Nat) : Dev :=
  match d.cmd? q slot with
  | none => d
  | some c =>
    let d := d.order q slot .kill
    (List.range c.engines.length).foldl (fun d i => d.ackEngine q slot i) d

/-- An ABORT reaches the arbiter (R283): REFUSED where its queue is FREE or DESTROYING by then; where its command has left the queue, what
became of it; else the command's kill, its own or one before it, decides when every engine has acknowledged. -/
def Dev.abortArrives (d : Dev) (q slot : Nat) : Dev :=
  let x := d.queue q
  if (d.part x.part).qop ≠ some (.abort q slot false) then d
  else if x.st = .free || x.st = .destroying then d.qctlDone x.part qctlRefused
  else if d.cmd? q slot = none then d.qctlDone x.part (x.retiredResult slot)
  else d.setPart x.part { d.part x.part with qop := some (.abort q slot true) }

/-- The kill sent for a command reaches the arbiter (R280, R283): recorded, since a numbered command has left its queue. A command not yet
RUNNING has no engine and ends at once; kill orders go to the engines of the others that have no drain order. -/
def Dev.killArrives (d : Dev) (q slot : Nat) : Dev :=
  match d.cmd? q slot with
  | none => d
  | some c =>
    match c.sent with
    | none => d
    | some why =>
      let d := if why = .ends errKilledAbort then d.abortArrives q slot else d
      let d := d.putCmd q { c with sent := none, kill := some why }
      let d := if c.engines.any (fun e => e.order = .drain) then d else d.order q slot .kill
      d.settleKill q slot

/-! ### Partition re-initialisation (R371, R372) -/

/-- Causes of PRT_REINIT_STAT (R374). -/
def reinitSilent : Nat := 1
def reinitIsolate : Nat := 2
def reinitHost : Nat := 3
def reinitEscalated : Nat := 4
def reinitWritten : Nat := 5

/-- Step 7 of R279 for the commands numbered before a re-initialisation, given with the commands' flip and signals. -/
def Dev.partQueues (d : Dev) (p : Nat) : List Nat := (d.queues.filter fun x => d.qIn p x.1 && x.2.st ≠ .free).map (·.1)

/-- The site of a device logical tile, if it has one (R347). -/
def Dev.siteOf (d : Dev) (t : Nat) : Option Nat :=
  (List.range 56).find? fun n => d.get fFlrSiteStatRole n = 0 && d.get fFlrSiteStatLogicalTile n = t

/-- An ISOLATE reset of a tile site (R362): its logic state is cleared and its ports and edges are DOWN. -/
def Dev.isolate (d : Dev) (n st : Nat) : Dev :=
  let d := if d.get fFlrSiteStatRole n = 0 then d.clearTile (d.get fFlrSiteStatLogicalTile n) else d
  d.siteDown n st

/-- Every home's mode (R181). -/
def Dev.setNack (d : Dev) (on : Bool) : Dev :=
  (List.range 13).foldl (fun d h => d.set fShcHomeCtlNackMode (if on then 1 else 0) h) d

/-- Homes return to RETRY mode in full service once no die is in stand-alone test and no partition in its recovery (R181, R182). -/
def Dev.nackEnds (d : Dev) : Dev :=
  if d.get fMntBootStatStage = 5 && (List.range 69).all (fun n => d.get fFlrSiteStatState n ≠ siteStandalone)
      && d.parts.all (fun x => x.2.reinit = none) then d.setNack false else d

/-- The partition that a requester works for, by its number (log 22): that of its tile. -/
def Dev.numPart (d : Dev) (num : Nat) : Option Nat :=
  if num < 768 then d.tilePart (num / 16)
  else if num < 816 then d.tilePart (num - 768)
  else if 832 ≤ num && num < 1024 then d.tilePart ((num - 832) / 4)
  else none

/-- A request that a partition's streams made. -/
def HomeReq.ofPart (p : Nat) : HomeReq → Bool
  | .strRd x _ | .strWr x _ _ | .strAtom x _ _ _ _ _ => (x.part.map Fin.val) = some p
  | _ => false

/-- Reclaim (R372): homes run in NACK mode; the partition's reservations are dropped, and its stream requests that no snoop is out for; its
near caches are invalidated. -/
def Dev.reclaim (d : Dev) (p : Nat) : Dev :=
  let d := d.setNack true
  let d := d.setCoh { d.coh with
    reservations := d.coh.reservations.filter fun r => d.numPart r.2 ≠ some p
    txns := d.coh.txns.filter fun t => t.started || !t.req.ofPart p
    waits := d.coh.waits.filter fun w => !w.req.ofPart p
    refused := d.coh.refused.filter fun r => !r.2.2.ofPart p }
  (d.tiles p).foldl Dev.clearTile d

/-- Every command the Caller has read ends, with the code of the one that failed or PARTITION_RESET, and every queue becomes
FREE (R371 step 5). -/
def Dev.endQueues (d : Dev) (p : Nat) : Dev :=
  let qs := d.partQueues p
  let d := qs.foldl (fun d q =>
    (d.queue q).cmds.foldl (fun d c =>
      let code := match c.kill.or c.sent with
        | some (.ends e) => if c.engines.any (fun e => e.order ≠ .none && !e.acked) then e else errPartitionReset
        | _ => errPartitionReset
      let d := c.engines.foldl (fun d e => d.clearEngine (d.queue q).ctx false e.eng) d
      (d.returnShadows q c.slot).endOne q c.slot code) d) d
  qs.foldl (fun d q =>
    (d.endStreams q fun s => s.q = q).setQueue q { Queue.initial with part := p, foreign := (d.queue q).foreign }) d

/-- The tiles of the engines that have been ordered to stop and have not acknowledged. -/
def Dev.silentTiles (d : Dev) (p : Nat) : List Nat :=
  ((d.partQueues p).flatMap fun q => (d.queue q).cmds.flatMap fun c => c.engines.flatMap fun e =>
    match e.eng with
    | .core k => if e.order ≠ .none && !e.acked then [k / 16] else []
    | _ => []).eraseDups

/-- Steps 1 to 5 of a re-initialisation (R371): kills for every unnumbered command, silent tiles isolated, host cores in
reset, the reclaim phase, endings, every queue FREE. What is left is step 6, which time completes (log 15). A trigger while
one is under way is absorbed (R379). -/
def Dev.startReinit (d : Dev) (p cause site : Nat) (isolated : List Nat) : Dev :=
  let st := d.partState p
  if !(st = partActive || st = partDissolving) || (d.part p).reinit ≠ none then d
  else
    let dissolving := st = partDissolving
    let d := if dissolving then d else d.set fPrtStatState partReinit p
    let d := d.hartsStop p
    let silent := d.silentTiles p
    let d := silent.foldl (fun d t => match d.siteOf t with
      | some n => d.isolate n siteReset
      | none => d) d
    let d := d.reclaim p
    let d := d.endQueues p
    let d := match (d.part p).qop with
      | none => d
      | some (.create _) => d.qctlDone p qctlRefused
      | some _ => d.qctlDone p qctlEscalated
    let r : Reinit := { cause := cause, site := site, tiles := isolated ++ silent, dissolving := dissolving,
                        since := (d.part p).cycles.toNat }
    let d := d.setPart p { d.part p with reinit := some r }
    let d := (d.set fMntNegStatEnabled 0 p).set fMntNegStatResult 0 p
    d.log 7 noneByte p 2 0 0 [cause]

/-- Step 6 (R371): the isolated tiles leave reset, STATE reads ACTIVE and the host cores enter HS-mode; PRT_REINIT_STAT
reports (R374). Within a dissolution only the report is made, and the dissolution goes on (R293). -/
def Dev.finishReinit (d : Dev) (p : Nat) : Dev :=
  match (d.part p).reinit with
  | none => d
  | some r =>
    let us := ((d.part p).cycles.toNat - r.since) * 64 / 10000
    let d := d.setPart p { d.part p with reinit := none }
    let d := d.bump fPrtReinitStatCount 1 p
    let d := (d.set fPrtReinitStatCause r.cause p).set fPrtReinitStatDuration (min 0xFFFFF us) p
    let d := d.set fPrtReinitStatSite r.site p
    let d := r.tiles.foldl (fun d t => match d.siteOf t with
      | some n => if d.get fFlrSiteStatState n = siteReset then d.siteUp n else d
      | none => d) d
    let d := d.nackEnds
    if r.dissolving then d.dissolveRest p
    else ((d.set fPrtStatState partActive p).set fPrtStatBusy 0 p).hartsStart p

end Sys2Proof.Machine
end

