-- ==== Sys2Proof/Machine/Operands.lean ====
section
/-! DEFINITION. Operand forms of the Jular instructions: predicates and the effective mask (03 R57), vector registers and
pairs (R33, R61), the second source (R65), uniform sources (R74), thread addresses (R76), and the decode checks. -/

namespace Sys2Proof.Machine

open Sys2Proof

/-- The element types of a vector instruction (R65). -/
inductive VTy where
  | i32 | u32 | f32 | f64 | i64 | u64 | f16x2 | bf16x2
  deriving DecidableEq, Repr

def VTy.ofCode (c : BitVec 3) : VTy :=
  if c = 0 then .i32 else if c = 1 then .u32 else if c = 2 then .f32 else if c = 3 then .f64
  else if c = 4 then .i64 else if c = 5 then .u64 else if c = 6 then .f16x2 else .bf16x2

/-- Two registers to an operand (R65). -/
def VTy.wide : VTy → Bool
  | .f64 => true
  | .i64 => true
  | .u64 => true
  | _ => false

def VTy.isInt : VTy → Bool
  | .i32 => true
  | .u32 => true
  | .i64 => true
  | .u64 => true
  | _ => false

def VTy.isSigned : VTy → Bool
  | .i32 => true
  | .i64 => true
  | _ => false

/-- A mask from its bits. -/
def maskUpTo : Nat → (Nat → Bool) → Mask
  | 0, _ => 0
  | n + 1, f => maskUpTo n f ||| (if f n then 1#64 <<< n else 0)

/-- A mask of 64 threads. -/
def maskOf (f : Nat → Bool) : Mask := maskUpTo 64 f

def maskAll : Mask := BitVec.allOnes 64

/-- The word of thread t in a register. -/
def rowGet (r : Row) (t : Nat) : W32 := r.getD t 0

/-- A register of 64 threads. -/
def rowOf (f : Nat → W32) : Row := (List.range 64).map f

/-- Vector register r of thread t (R26, R33). -/
def Grp.vreg (g : Grp) (r t : Nat) : W32 := rowGet (smapGet g.v r []) t

/-- Writing a vector register in the threads of a mask (R57). -/
def Grp.setVreg (g : Grp) (r : Nat) (mask : Mask) (f : Nat → W32) : Grp :=
  { g with v := smapPut g.v r (rowOf fun t => if mask.getLsbD t then f t else g.vreg r t) }

/-- An operand of one or two registers, the low word first (R33). -/
def Grp.operand (g : Grp) (wide : Bool) (r t : Nat) : W64 :=
  if wide then (g.vreg (r + 1) t ++ g.vreg r t : BitVec 64) else (g.vreg r t).setWidth 64

/-- Writing an operand of one or two registers, from the list of the 64 threads' values. -/
def Grp.setOperand (g : Grp) (wide : Bool) (r : Nat) (mask : Mask) (vals : List W64) : Grp :=
  let lo := g.setVreg r mask fun t => (vals.getD t 0).setWidth 32
  if wide then lo.setVreg (r + 1) mask fun t => ((vals.getD t 0) >>> 32).setWidth 32 else lo

/-- Predicate register n, a bit for each thread: p7 reads as true (R57). -/
def Grp.predReg (g : Grp) (n : Nat) : Mask := if n = 7 then maskAll else smapGet g.p n 0

/-- Writing a predicate in the threads of a mask: writes to p7 are ignored (R61). -/
def Grp.setPred (g : Grp) (n : Nat) (mask bits : Mask) : Grp :=
  if n = 7 then g else { g with p := smapPut g.p n ((g.predReg n &&& ~~~mask) ||| (bits &&& mask)) }

/-- The predicate value of every thread: p[PS] XOR PN (R57). -/
def Grp.predVal (g : Grp) (pr : Pred) : Mask :=
  if pr.pn then ~~~(g.predReg pr.ps.toNat) else g.predReg pr.ps.toNat

/-- The effective mask (R57). -/
def Grp.eff (g : Grp) (pr : Pred) : Mask := g.active &&& g.predVal pr

/-- The never-executing form (R57). -/
def predNever (pr : Pred) : Bool := decide (pr.ps = 7) && pr.pn

/-- Uniform register n. -/
def Grp.ureg (g : Grp) (n : Nat) : W64 := smapGet g.u n 0

def Grp.setUreg (g : Grp) (n : Nat) (x : W64) : Grp := { g with u := smapPut g.u n x }

/-- To the next instruction word. -/
def Grp.step (g : Grp) : Grp := { g with pc := g.pc + 1 }

/-- IMM16 = VS3:VS2 (R62). -/
def vopImm16 (o : VOp) : BitVec 16 := o.vs3 ++ o.vs2

/-- The uniform form of a second source (R65). -/
def uniformSource (ty : VTy) (x : W64) : W64 := if ty.wide then x else (x.setWidth 32).setWidth 64

/-- The immediate form of a second source (R65). -/
def immSource (ty : VTy) (i : BitVec 16) : W64 :=
  match ty with
  | .i32 => (i.signExtend 32).setWidth 64
  | .u32 => i.setWidth 64
  | .f32 => (i.setWidth 64) <<< 16
  | .f64 => (i.setWidth 64) <<< 48
  | .i64 => i.signExtend 64
  | .u64 => i.setWidth 64
  | .f16x2 => ((i ++ i : BitVec 32)).setWidth 64
  | .bf16x2 => ((i ++ i : BitVec 32)).setWidth 64

/-- The second source of thread t as S2K selects (R62, R65). -/
def Grp.src2 (g : Grp) (ty : VTy) (o : VOp) (t : Nat) : W64 :=
  if o.s2k = 0 then g.operand ty.wide o.vs2.toNat t
  else if o.s2k = 1 then uniformSource ty (g.ureg (o.vs2.toNat % 64))
  else immSource ty (vopImm16 o)

/-- A register field that R33 and R61 forbid: at or above V, or an odd pair. -/
def regBad (v : Nat) (wide : Bool) (r : Nat) : Bool :=
  if wide then r % 2 = 1 || r + 1 ≥ v else r ≥ v

/-- Which fields of the vector format a function uses, and the types it admits (R58, R65). -/
structure VShape where
  types : List VTy
  s1 : Bool
  s2 : Bool
  s3 : Bool
  deriving DecidableEq, Repr

def allTypes : List VTy := [.i32, .u32, .f32, .f64, .i64, .u64, .f16x2, .bf16x2]
def intTypes : List VTy := [.i32, .u32, .i64, .u64]
def scalarTypes : List VTy := [.i32, .u32, .f32, .f64, .i64, .u64]
/-- "I, F, X2" of R66. -/
def signedTypes : List VTy := [.i32, .f32, .f64, .i64, .f16x2, .bf16x2]
def divTypes : List VTy := [.i32, .u32, .f32, .f64, .i64, .u64]
def floatTypes : List VTy := [.f32, .f64]

/-- The second source's decode checks: S2K = 3 is reserved (R62), a vector source's register rules (R61). -/
def src2Bad (v : Nat) (ty : VTy) (o : VOp) : Bool :=
  o.s2k = 3 || (o.s2k = 0 && regBad v ty.wide o.vs2.toNat)

/-- The decode checks of a vector function (R58, R61, R65): true raises ILLEGAL_INSTRUCTION. dest says whether VD names
a vector register. -/
def VShape.bad (sh : VShape) (v : Nat) (dest : Bool) (o : VOp) : Bool :=
  let ty := VTy.ofCode o.ty
  !sh.types.contains ty
    || (dest && regBad v ty.wide o.vd.toNat)
    || (sh.s1 && regBad v ty.wide o.vs1.toNat)
    || (sh.s2 && src2Bad v ty o)
    || (sh.s3 && (regBad v ty.wide o.vs3.toNat || (sh.s2 && o.s2k = 2)))

/-- The second source of a uniform instruction (R62): u[US2], or sext(IMM20). -/
def Grp.usrc2 (g : Grp) (o : UOp) : W64 :=
  if o.imm then o.imm20.signExtend 64 else g.ureg o.us2.toNat

/-- The access size in bytes (R62). -/
def sizeBytes (c : BitVec 3) : Nat := 2 ^ c.toNat

/-- off(t) of R76. -/
def Grp.addrOff (g : Grp) (o : MemOp) (e t : Nat) : W64 :=
  if o.am = 0 then 0
  else if o.am = 1 then BitVec.ofNat 64 (t * e)
  else (g.vreg o.vx.toNat t).signExtend 64

/-- a(t) of R76, modulo 2^64. -/
def Grp.addr (g : Grp) (o : MemOp) (e t : Nat) : W64 :=
  g.ureg o.ub.toNat + o.off16.signExtend 64 + g.addrOff o e t

/-- The threads of a mask, ascending. -/
def threadsOf (m : Mask) : List Nat := (List.range 64).filter fun t => m.getLsbD t

end Sys2Proof.Machine
end

