-- ==== Sys2Proof/Machine/Flags.lean ====
section
/-! DEFINITION. The block's Jular cores keep no arithmetic flags (05 R122). What stands in their place: predicates written by
compares (03 R68, R74) and the counts of the tensor statistics and monitor records (05 R128 to R134). -/

namespace Sys2Proof.Machine

open Sys2Proof

/-- The compares of R68 and R74. -/
inductive Cmp where
  | eq | ne | lt | le | gt | ge
  deriving DecidableEq, Repr

/-- A compare of two integers. -/
def Cmp.ofInt (c : Cmp) (a b : Int) : Bool :=
  match c with
  | .eq => decide (a = b)
  | .ne => decide (a ≠ b)
  | .lt => decide (a < b)
  | .le => decide (a ≤ b)
  | .gt => decide (b < a)
  | .ge => decide (b ≤ a)

/-- A compare of two floating-point values (R68): with a NaN operand 0, except NE, which yields 1. -/
def Cmp.ofFp (c : Cmp) (a b : Fp) : Bool :=
  if a.isNan || b.isNan then decide (c = .ne)
  else match c with
    | .eq => Fp.eqv a b
    | .ne => !Fp.eqv a b
    | .lt => Fp.lt false a b
    | .le => !Fp.lt false b a
    | .gt => Fp.lt false b a
    | .ge => !Fp.lt false a b

/-- A compare in an element type (R68). -/
def Cmp.holds (c : Cmp) (ty : VTy) (a b : W64) : Bool :=
  match ty with
  | .i32 => c.ofInt (a.setWidth 32).toInt (b.setWidth 32).toInt
  | .u32 => c.ofInt (a.toNat % 2 ^ 32 : Nat) (b.toNat % 2 ^ 32 : Nat)
  | .i64 => c.ofInt a.toInt b.toInt
  | .u64 => c.ofInt (a.toNat : Nat) (b.toNat : Nat)
  | .f64 => c.ofFp (Fp.decode fpF64 a.toNat) (Fp.decode fpF64 b.toNat)
  | _ => c.ofFp (Fp.decode fpF32 (a.toNat % 2 ^ 32)) (Fp.decode fpF32 (b.toNat % 2 ^ 32))

/-- ARITH_SAT counts saturating roundings (R130). -/
def Grp.countArith (g : Grp) (n : Nat) : Grp :=
  { g with stats := { g.stats with arithSat := satCount 64 g.stats.arithSat n } }

/-- What one counted element adds (R128): zero, saturated, not finite. -/
structure ElemCount where
  zero : Bool
  sat : Bool
  nonfinite : Bool
  deriving DecidableEq, Repr

/-- Counting stored or drained elements into the tensor statistics record (R113, R128, R129). -/
def Grp.countElems (g : Grp) (es : List ElemCount) : Grp :=
  { g with stats := { g.stats with
      elements := satCount 64 g.stats.elements es.length
      zeros := satCount 64 g.stats.zeros (es.countP (·.zero))
      saturations := satCount 64 g.stats.saturations (es.countP (·.sat))
      nonfinite := satCount 64 g.stats.nonfinite (es.countP (·.nonfinite)) } }

/-- How a stored element counts (R129): saturated when its magnitude is the format's largest finite value. -/
def storedCount (f : FpFmt) (bits : Nat) : ElemCount :=
  let x := Fp.decode f bits
  { zero := x.isZero, sat := decide (bits % f.signBit = f.maxBits), nonfinite := x.nonFinite }

def Stats.zero : Stats := { elements := 0, zeros := 0, saturations := 0, nonfinite := 0, arithSat := 0 }

def MonSlot.zero : MonSlot :=
  { updateSq := 0, weightSq := 0, elements := 0, zeros := 0, saturations := 0, nonfinite := 0 }

/-- The tensor statistics record's 64 bytes (R128). -/
def Stats.bytes (s : Stats) : List Byte :=
  leBytes 8 s.elements.toNat ++ leBytes 8 s.zeros.toNat ++ leBytes 8 s.saturations.toNat
    ++ leBytes 8 s.nonfinite.toNat ++ leBytes 8 s.arithSat.toNat ++ List.replicate 24 0

/-- A monitor slot's 32 bytes (R134). -/
def MonSlot.bytes (m : MonSlot) : List Byte :=
  leBytes 8 m.updateSq.toNat ++ leBytes 8 m.weightSq.toNat ++ leBytes 4 m.elements.toNat
    ++ leBytes 4 m.zeros.toNat ++ leBytes 4 m.saturations.toNat ++ leBytes 4 m.nonfinite.toNat

/-- The monitor record's 2,048 bytes (R134). -/
def monitorBytes (m : SMap MonSlot) : List Byte :=
  (List.range 64).flatMap fun i => (smapGet m i MonSlot.zero).bytes

/-- One weight element's part of a monitor slot (R134). u and w are the FP32 update and the new weight as a value; the
squares are added in FP64 with one rounding each unless the element is not finite. -/
def MonSlot.count (m : MonSlot) (u w : Fp) (sats : Nat) (nonfinite : Bool) : MonSlot :=
  let addSq (acc : W64) (x : Fp) : W64 :=
    BitVec.ofNat 64 (Fp.round fpF64 (Fp.add (Fp.decode fpF64 acc.toNat) (Fp.mul x x))).bits
  { updateSq := if nonfinite then m.updateSq else addSq m.updateSq u
    weightSq := if nonfinite then m.weightSq else addSq m.weightSq w
    elements := satCount 32 m.elements 1
    zeros := satCount 32 m.zeros (if w.isZero then 1 else 0)
    saturations := satCount 32 m.saturations sats
    nonfinite := satCount 32 m.nonfinite (if nonfinite then 1 else 0) }

end Sys2Proof.Machine
end

