-- ==== Sys2Proof/Machine/Shuffle.lean ====
section
/-! DEFINITION. The Shuffle generator's functions (05 R136, R137). -/

namespace Sys2Proof.Machine

open Sys2Proof

/-- The mixing function (R136). -/
def shuffleMix (x : W64) : W64 :=
  let x := x ^^^ (x >>> 31)
  let x := x * 0xA24B1F6E9C3D5B87#64
  let x := x ^^^ (x >>> 29)
  let x := x * 0x7F4A2C91D5E3B0C5#64
  x ^^^ (x >>> 32)

/-- The output function (R136): thread t and draw counter value. -/
def shuffleOut (key : W64) (t : Nat) (draw : BitVec 58) : W64 :=
  shuffleMix (key ^^^ ((draw.setWidth 64) <<< 6) ^^^ BitVec.ofNat 64 t)

/-- The key of a group (R137): seed, sequence number, linear index. -/
def shuffleKey (seed seq g : W64) : W64 :=
  shuffleMix (shuffleMix (shuffleMix seed ^^^ seq) ^^^ g)

end Sys2Proof.Machine
end

