-- ==== Sys2Proof/Machine/Values.lean ====
section
/-! DEFINITION. The results of the vector functions on one thread's values, and of the group reductions (03 R66 to R73,
05 R124 to R135). A result carries how many of its roundings saturated. -/

namespace Sys2Proof.Machine

open Sys2Proof

/-- A result and the number of its roundings that saturated (R130). -/
structure VRes where
  val : W64
  sats : Nat
  deriving DecidableEq, Repr

def vExact (x : W64) : VRes := { val := x, sats := 0 }

/-- A floating-point function, on each half of an X2 type (R66). -/
def vFp (ty : VTy) (k : FpFmt → Nat → Nat → Nat → FpRes) (a b c : W64) : VRes :=
  let halves (f : FpFmt) : VRes :=
    let lo := k f (a.toNat % 2 ^ 16) (b.toNat % 2 ^ 16) (c.toNat % 2 ^ 16)
    let hi := k f (natBitsAt a.toNat 16 16) (natBitsAt b.toNat 16 16) (natBitsAt c.toNat 16 16)
    { val := BitVec.ofNat 64 (lo.bits + 2 ^ 16 * hi.bits)
      sats := (if lo.sat then 1 else 0) + (if hi.sat then 1 else 0) }
  let whole (f : FpFmt) (w : Nat) : VRes :=
    let r := k f (a.toNat % 2 ^ w) (b.toNat % 2 ^ w) (c.toNat % 2 ^ w)
    { val := BitVec.ofNat 64 r.bits, sats := if r.sat then 1 else 0 }
  match ty with
  | .f64 => whole fpF64 64
  | .f16x2 => halves fpF16
  | .bf16x2 => halves fpBf16
  | _ => whole fpF32 32

/-- An integer function at the width of the type. -/
def vInt (ty : VTy) (k : (w : Nat) → BitVec w → BitVec w → BitVec w → BitVec w) (a b c : W64) : W64 :=
  if ty.wide then k 64 a b c else (k 32 (a.setWidth 32) (b.setWidth 32) (c.setWidth 32)).setWidth 64

/-- A function with an integer and a floating-point reading. -/
def vArith (ty : VTy) (i : (w : Nat) → BitVec w → BitVec w → BitVec w → BitVec w)
    (f : FpFmt → Nat → Nat → Nat → FpRes) (a b c : W64) : VRes :=
  if ty.isInt then vExact (vInt ty i a b c) else vFp ty f a b c

/-- A bitwise function on each element of the type (ABS and NEG on floating-point types, R125). -/
def vBits (ty : VTy) (k : FpFmt → Nat → Nat) (a : W64) : VRes :=
  vFp ty (fun f x _ _ => { bits := k f x, sat := false }) a 0 0

def fpNoSat (n : Nat) : FpRes := { bits := n, sat := false }

def vAdd (ty : VTy) (a b : W64) : VRes :=
  vArith ty (fun _ x y _ => x + y) (fun f x y _ => Fp.round f (Fp.add (Fp.decode f x) (Fp.decode f y))) a b 0

def vSub (ty : VTy) (a b : W64) : VRes :=
  vArith ty (fun _ x y _ => x - y)
    (fun f x y _ => Fp.round f (Fp.add (Fp.decode f x) (Fp.decode f y).negate)) a b 0

def vMul (ty : VTy) (a b : W64) : VRes :=
  vArith ty (fun _ x y _ => x * y) (fun f x y _ => Fp.round f (Fp.mul (Fp.decode f x) (Fp.decode f y))) a b 0

/-- s1 * s2 + s3 with one rounding (R66). -/
def fpFma (f : FpFmt) (x y z : Nat) : FpRes :=
  Fp.round f (Fp.add (Fp.mul (Fp.decode f x) (Fp.decode f y)) (Fp.decode f z))

def vFma (ty : VTy) (a b c : W64) : VRes := vArith ty (fun _ x y z => x * y + z) fpFma a b c

def vMinMax (ty : VTy) (isMax : Bool) (a b : W64) : VRes :=
  if ty.isInt then
    let less := if isMax then Cmp.lt.holds ty a b else Cmp.gt.holds ty a b
    vExact (if less then b else a)
  else vFp ty (fun f x y _ => fpNoSat (f.minMax isMax x y)) a b 0

def vAbs (ty : VTy) (a : W64) : VRes :=
  if ty.isInt then vExact (vInt ty (fun _ x _ _ => if x.msb then -x else x) a 0 0)
  else vBits ty (fun f x => x % f.signBit) a

def vNeg (ty : VTy) (a : W64) : VRes :=
  if ty.isInt then vExact (vInt ty (fun _ x _ _ => -x) a 0 0)
  else vBits ty (fun f x => if x / f.signBit % 2 = 1 then x - f.signBit else x + f.signBit) a

def vAnd (ty : VTy) (a b : W64) : VRes := vExact (vInt ty (fun _ x y _ => x &&& y) a b 0)
def vOr (ty : VTy) (a b : W64) : VRes := vExact (vInt ty (fun _ x y _ => x ||| y) a b 0)
def vXor (ty : VTy) (a b : W64) : VRes := vExact (vInt ty (fun _ x y _ => x ^^^ y) a b 0)
def vNot (ty : VTy) (a : W64) : VRes := vExact (vInt ty (fun _ x _ _ => ~~~x) a 0 0)

/-- Shifts take s2 modulo the element's bits; SHR is arithmetic for signed types (R66). -/
def vShl (ty : VTy) (a b : W64) : VRes := vExact (vInt ty (fun w x y _ => x <<< (y.toNat % w)) a b 0)
def vShr (ty : VTy) (a b : W64) : VRes :=
  vExact (vInt ty (fun w x y _ => if ty.isSigned then x.sshiftRight (y.toNat % w) else x >>> (y.toNat % w)) a b 0)

/-- The high half of the full product (R66). -/
def vMulhi (ty : VTy) (a b : W64) : VRes :=
  vExact (vInt ty (fun w x y _ =>
    if ty.isSigned then BitVec.ofInt w (x.toInt * y.toInt / ((2 ^ w : Nat) : Int))
    else BitVec.ofNat w (x.toNat * y.toNat / 2 ^ w)) a b 0)

/-- Division (R67): by 0 all ones, which is -1 when signed; the most negative value by -1 gives itself. -/
def vDiv (ty : VTy) (a b : W64) : VRes :=
  vArith ty (fun w x y _ => if y = 0 then BitVec.allOnes w else if ty.isSigned then x.sdiv y else x.udiv y)
    (fun f x y _ => Fp.divRound f (Fp.decode f x) (Fp.decode f y)) a b 0

/-- Remainder (R67): by 0 s1. -/
def vRem (ty : VTy) (a b : W64) : VRes :=
  vExact (vInt ty (fun _ x y _ => if y = 0 then x else if ty.isSigned then x.srem y else x.umod y) a b 0)

def vSqrt (ty : VTy) (a : W64) : VRes := vFp ty (fun f x _ _ => Fp.sqrtRound f (Fp.decode f x)) a 0 0
def vRcp (ty : VTy) (a : W64) : VRes :=
  vFp ty (fun f x _ _ => Fp.divRound f (.fin false 1 0) (Fp.decode f x)) a 0 0
def vRsq (ty : VTy) (a : W64) : VRes := vFp ty (fun f x _ _ => Fp.rsqrtRound f (Fp.decode f x)) a 0 0
def vExp2 (ty : VTy) (a : W64) : VRes := vFp ty (fun f x _ _ => Fp.exp2Round f (Fp.decode f x)) a 0 0
def vLog2 (ty : VTy) (a : W64) : VRes := vFp ty (fun f x _ _ => Fp.log2Round f (Fp.decode f x)) a 0 0

/-- The count of leading zero bits of a 32-bit word (R66). -/
def clz32 (x : Nat) : Nat := 32 - natBits x

/-- The count of one bits, over a bound on the width. -/
def popcount : Nat → Nat → Nat
  | 0, _ => 0
  | k + 1, x => x % 2 + popcount k (x / 2)

def vClz (_ : VTy) (a : W64) : VRes := vExact (BitVec.ofNat 64 (clz32 (a.toNat % 2 ^ 32)))
def vPopc (_ : VTy) (a : W64) : VRes := vExact (BitVec.ofNat 64 (popcount 32 (a.toNat % 2 ^ 32)))

/-- ONLMAX (R72, R126, R135): the factor f and the new maximum, each as F32 bits. -/
def onlmaxVal (m x : Nat) : Nat × Nat :=
  let a := Fp.decode fpF32 m
  let b := Fp.decode fpF32 x
  if a.isNan || b.isNan then (fpF32.nanBits, fpF32.nanBits)
  else
    let m1 := fpF32.minMax true m x
    let c := Fp.decode fpF32 m1
    let f := if Fp.eqv c a then (Fp.round fpF32 (.fin false 1 0)).bits
      else (Fp.exp2Round fpF32 (Fp.add a c.negate)).bits
    (f, m1)

/-- Stochastic rounding with a k-bit field r (R132). -/
def stochRound (f : FpFmt) (k r : Nat) : Fp → FpRes
  | .nan => fpNoSat f.nanBits
  | .inf neg => fpNoSat (f.sign neg f.infBits)
  | .fin neg m e =>
    if m = 0 then fpNoSat 0
    else
      let q := max f.emin (e + (natBits m : Int) - ((f.mb : Int) + 1))
      if q ≤ e then f.pack neg (m * 2 ^ (e - q).toNat) q
      else
        let s := (q - e).toNat
        let lo := m >>> s
        let rem := m % 2 ^ s
        if rem = 0 then f.pack neg lo q
        else
          let fk := rem * 2 ^ k / 2 ^ s
          f.pack neg (if r < fk then lo + 1 else lo) q

/-- One weight update (R73, R132, R134): the new weight's bits, the new momentum's bits, and what it adds to the
monitor. -/
structure WUpd where
  weight : Nat
  momentum : Nat
  u : Fp
  w : Fp
  sats : Nat
  nonfinite : Bool
  deriving DecidableEq, Repr

/-- The update of one weight element in format f: field width k of 0 is nearest-even; an exact zero gives +0 (R132). -/
def wupdElem (f : FpFmt) (k r : Nat) (mom : Bool) (coeff : W64) (w g m : Nat) : WUpd :=
  let lr := Fp.decode fpF32 (coeff.toNat % 2 ^ 32)
  let beta := Fp.decode fpF32 (coeff.toNat / 2 ^ 32)
  let gv := Fp.decode fpF32 g
  let m1 := Fp.round fpF32 (Fp.add (Fp.mul beta (Fp.decode fpF32 m)) gv)
  let d := if mom then Fp.decode fpF32 m1.bits else gv
  let u := Fp.round fpF32 (Fp.mul lr d)
  let uv := Fp.decode fpF32 u.bits
  let x := Fp.add (Fp.decode f w) uv.negate
  let wn := if k = 0 then (if x.isZero then fpNoSat 0 else Fp.round f x) else stochRound f k r x
  let wv := Fp.decode f wn.bits
  { weight := wn.bits
    momentum := if mom then m1.bits else m
    u := uv
    w := wv
    sats := (if mom && m1.sat then 1 else 0) + (if u.sat then 1 else 0) + (if wn.sat then 1 else 0)
    nonfinite := gv.nonFinite || uv.nonFinite || wv.nonFinite
      || (mom && (Fp.decode fpF32 m1.bits).nonFinite) }

/-- One level of the reduction tree (R70): neighbours combined, an absent one passed over; the count adds up the
saturating nodes. -/
def redLevel (op : W64 → W64 → VRes) : List (Option W64) → List (Option W64) × Nat
  | some a :: some b :: t =>
    let r := op a b
    let rest := redLevel op t
    (some r.val :: rest.1, rest.2 + r.sats)
  | none :: b :: t => let rest := redLevel op t; (b :: rest.1, rest.2)
  | a :: none :: t => let rest := redLevel op t; (a :: rest.1, rest.2)
  | [a] => ([a], 0)
  | [] => ([], 0)

/-- The reduction over n levels. -/
def redTree (op : W64 → W64 → VRes) : Nat → List (Option W64) → Nat → Option W64 × Nat
  | 0, l, n => ((l.head?).join, n)
  | k + 1, l, n => let r := redLevel op l; redTree op k r.1 (n + r.2)

/-- One element's code in a format, canonical where it is a NaN (R125). -/
def FpFmt.canonBits (f : FpFmt) (x : Nat) : Nat := if (Fp.decode f x).isNan then f.nanBits else x

/-- A value of a type with a NaN made canonical (R125); integers stay. -/
def vCanon (ty : VTy) (a : W64) : W64 :=
  match ty with
  | .f32 => BitVec.ofNat 64 (fpF32.canonBits (a.toNat % 2 ^ 32))
  | .f64 => BitVec.ofNat 64 (fpF64.canonBits a.toNat)
  | .f16x2 => BitVec.ofNat 64 (fpF16.canonBits (natBitsAt a.toNat 0 16) + 2 ^ 16 * fpF16.canonBits (natBitsAt a.toNat 16 16))
  | .bf16x2 => BitVec.ofNat 64 (fpBf16.canonBits (natBitsAt a.toNat 0 16) + 2 ^ 16 * fpBf16.canonBits (natBitsAt a.toNat 16 16))
  | _ => a

/-- The width in bits of an element of a VCVT format code (R69). -/
def cvtWidth (c : Nat) : Nat :=
  if c = 1 then 64 else if c = 2 || c = 3 then 16 else if c = 4 || c = 5 || c = 6 then 8 else 32

/-- The floating-point format of a code (R64), if it is one; the MX element codes name their element format. -/
def fmtOfCode (c : Nat) : Option FpFmt :=
  if c = 0 then some fpF32 else if c = 1 then some fpF64 else if c = 2 then some fpBf16
  else if c = 3 then some fpF16 else if c = 4 || c = 9 then some fpE4m3 else if c = 5 || c = 10 then some fpE5m2
  else if c = 11 then some fpE3m2 else if c = 12 then some fpE2m3 else if c = 13 then some fpE2m1 else none

/-- The value of a VCVT source (R69). -/
def cvtValue (c bits : Nat) : Fp :=
  match fmtOfCode c with
  | some f => Fp.decode f bits
  | none =>
    let i : Int := if c = 6 then sextNat 8 bits else if c = 7 then sextNat 32 bits else (bits % 2 ^ 32 : Nat)
    .fin (decide (i < 0)) i.natAbs 0

/-- The range of an integer destination of VCVT (R69). -/
def cvtRange (c : Nat) : Int × Int :=
  if c = 6 then (-128, 127) else if c = 7 then (-(2 ^ 31), 2 ^ 31 - 1) else (0, 2 ^ 32 - 1)

/-- VCVT (R69, R127, R130): the destination's bits; sat counts a saturation, or a finite value clamped. -/
def cvtElem (sfmt dfmt bits : Nat) : FpRes :=
  let v := cvtValue sfmt bits
  match fmtOfCode dfmt with
  | some f => Fp.round f v
  | none =>
    let lo := (cvtRange dfmt).1
    let hi := (cvtRange dfmt).2
    let w := cvtWidth dfmt
    match v with
    | .nan => fpNoSat 0
    | .inf neg => fpNoSat (wrapNat w (if neg then lo else hi))
    | .fin neg m e =>
      let i := Fp.toInt neg m e
      if i < lo then { bits := wrapNat w lo, sat := true }
      else if i > hi then { bits := wrapNat w hi, sat := true }
      else fpNoSat (wrapNat w i)

end Sys2Proof.Machine
end

