-- ==== Sys2Proof/Machine/JulOps.lean ====
section
/-! DEFINITION. What every Jular instruction shares: the core, its lanes and arrays (02 R30, R31, 04 R95, R116), the
group or lead thread an instruction belongs to, the decode checks common to all (03 R57 to R60), and raising an error (R91). -/

namespace Sys2Proof.Machine

open Sys2Proof

/-! ### Error codes (R91, and the codes other chapters give the same names) -/

def errIllegal : Nat := 0x0404
def errRange : Nat := 0x0202
def errOutside : Nat := 0x0203
def errPoison : Nat := 0x0301
def errMatrixDivergent : Nat := 0x0401
def errBarrierDivergent : Nat := 0x0402
def errReconvergence : Nat := 0x0405
def errFormat : Nat := 0x0406

/-! ### Cores -/

/-- The presented lane count L (R31): working lanes, at most 16. -/
def Core.lanes (c : Core) : Nat :=
  min 16 (17 - c.lanesFailed.length - (if c.laneSpareLost then 1 else 0))

/-- A core with fewer than 8 working lanes is withdrawn (R31). -/
def Core.withdrawn (c : Core) : Bool := c.lanes < 8

/-- The issue cycles of a group instruction (R30). -/
def Core.cycles (c : Core) : Nat := (64 + c.lanes - 1) / c.lanes

/-- The width a physical array presents, none once removed (R116). -/
def ArrayHw.width (a : ArrayHw) : Option Nat :=
  let lost := a.failedCols.length + (if a.spareLost then 1 else 0)
  if a.rowFailed || lost ≥ 3 then none else if lost = 2 then some 31 else some 32

/-- The widths of the presented arrays, in ascending physical order (R95). -/
def Core.arrayWidths (c : Core) : List Nat := c.arrayHw.filterMap ArrayHw.width

/-- A core that takes no new groups: withdrawn, stopped by a failed check, or awaiting a cut-in's approval (R31, R32,
R116). -/
def Core.takesGroups (c : Core) : Bool :=
  !c.withdrawn && !c.stopped && !c.lanePending && c.arrayHw.all (fun a => !a.pendingCutin)

/-- The bytes of the reconvergence spill area of a core (R36): the groups on it times (D - 32) times 24, rounded up
to 128. -/
def Run.spill (r : Run) : Nat :=
  (((r.hdr.maxDiverge - 32) * 24 * (r.hdr.groups / r.cores.length)) + 127) / 128 * 128

/-- S of R36, R37: the scratch bytes of a running core. -/
def Core.scratchSize (c : Core) (r : Run) : Nat := 524288 - c.nearUnits * 32768 - r.spill

/-- S is below SCRATCH_BYTES (R37); counted without a difference, since N and P may leave no scratch at all. -/
def Core.scratchShort (c : Core) (r : Run) : Bool := 524288 < c.nearUnits * 32768 + r.spill + r.hdr.scratchBytes

/-! ### The thread of an instruction -/

def Run.thr (r : Run) : Thr → Option Grp
  | .group i => smapGet? r.groups i.val
  | .lead k => smapGet? r.leads k.val

def Run.putThr (r : Run) (t : Thr) (g : Grp) : Run :=
  match t with
  | .group i => { r with groups := smapPut r.groups i.val g }
  | .lead k => { r with leads := smapPut r.leads k.val g }

def thrIsLead : Thr → Bool
  | .lead _ => true
  | .group _ => false

/-- Storing a changed thread, troupe and core. -/
def Dev.putThr (d : Dev) (w : Who) (c : Core) (r : Run) (g : Grp) : Dev :=
  d.setCore w.core.val { c with run := some (r.putThr w.thr g) }

/-- A group that waits for an event before its next instruction (R28); it keeps its pc. A lead thread that stalls (R47)
holds no issue slot to give up: it stays at its instruction, which its next command tries again. -/
def Dev.stall (d : Dev) (w : Who) (c : Core) (r : Run) (g : Grp) (why : Why) : Dev :=
  if thrIsLead w.thr then d.putThr w c r g
  else d.putThr w c { r with clock := r.clock + 1 } { g with sched := .pendingWait why, since := r.clock }

/-- An instruction error (R46, R91): the thread issues nothing further and the command is ended with the code. -/
def Dev.instError (d : Dev) (w : Who) (c : Core) (r : Run) (g : Grp) (code : Nat) : Dev :=
  (d.putThr w c r { g with sched := .pendingWait .error }).raise r.q r.slot code

/-- The thread that an access error of a command belongs to issues nothing further (R91). -/
def Dev.stopThread (d : Dev) (q slot : Nat) (who : Option Who) : Dev :=
  match who with
  | none => d
  | some w =>
    let c := d.core w.core.val
    match c.run with
    | none => d
    | some r =>
      match r.thr w.thr with
      | none => d
      | some g =>
        if r.q ≠ q || r.slot ≠ slot || g.sched = .exited then d
        else d.putThr w c r { g with sched := .pendingWait .error }

/-- The first and the first word past the code region (R59). -/
def Header.codeLo (h : Header) : Nat := 8 + 2 * h.rings.length
def Header.codeHi (h : Header) : Nat := h.codeLo + h.codeWords
def Header.inCode (h : Header) (pc : Nat) : Bool := h.codeLo ≤ pc && pc < h.codeHi

/-- The registers a bank's pending drain will write, for group gi (R115). -/
def Bank.drainRegs (b : Bank) (gi : Nat) : List Nat :=
  match b.st with
  | .draining dr => if dr.g = gi then (List.range (if dr.bf16 then 8 else 16)).map (dr.vd + ·) else []
  | _ => []

/-- The array, if any, whose pending drain writes a register in a list (R28, R115). -/
def Run.drainHit (r : Run) (gi : Nat) (regs : List Nat) : Option Nat :=
  (List.range r.arrays.length).find? fun a =>
    match r.arrays[a]? with
    | some x => (x.bank0.drainRegs gi ++ x.bank1.drainRegs gi).any (fun v => regs.contains v)
    | none => false

/-- The remote accesses of a group whose answers will write a register in a list (R28). -/
def Grp.awaits (g : Grp) (regs : List Nat) : List Nat :=
  (g.away.filter fun x => x.2.any fun v => regs.contains v).map (·.1)

/-- What an instruction of a follow group that names these registers waits for (R28): a drain, or the answers of remote loads and
atomics. A lead thread has neither. -/
def thrDrain (r : Run) (t : Thr) (regs : List Nat) : Option Why :=
  match t with
  | .group i =>
    match r.drainHit i.val regs with
    | some a => some (.drain a)
    | none =>
      match (smapGet? r.groups i.val).map fun g => g.awaits regs with
      | none | some [] => none
      | some ids => some (.remote ids)
  | .lead _ => none

/-! ### Whether a thread may issue -/

/-- Has the Caller sent this core a drain or kill order (R264)? It then issues nothing more for the command. -/
def Dev.ordered (d : Dev) (r : Run) (k : Nat) : Bool :=
  match d.cmd? r.q r.slot with
  | some c => c.engines.any fun e => e.eng = .core k && e.order ≠ .none
  | none => false

/-- Does a fill of this lead thread wait for a walk (R47)? -/
def Dev.fillMisses (d : Dev) (w : Who) : Bool := d.walks.any fun x => x.streams.any fun s => s.fill && s.who = some w

/-- The kernel word at a thread's pc, where the translation of its page is cached in the core or its tile (R51, R56). -/
def Dev.kernelWord (d : Dev) (w : Who) (r : Run) (g : Grp) : Option W64 :=
  match (d.cmd? r.q r.slot).map Cmd.body with
  | some (.kernel k) =>
    let va := k.kva + 8 * g.pc
    let found := (findXent (d.core w.core.val).tlb r.ctx (va / 4096)).or
      (findXent (d.rcacheOf (w.core.val / 16)) r.ctx (va / 4096))
    match found with
    | some x => if x.window.isSome then none else some (BitVec.ofNat 64 (d.peekWord (x.phys va)))
    | none => none
  | _ => none

/-- The word a thread has reached holds a reserved MAJOR, function or selecting field (R58, log 112). -/
def Dev.reservedWord (d : Dev) (w : Who) (r : Run) (g : Grp) : Bool :=
  match d.kernelWord w r g with
  | some x => (decodeJular w x).isNone
  | none => false

/-- May a thread issue: no order to stop has reached its core (R264), and no fill of a lead thread misses (R47). -/
def Dev.mayIssue (d : Dev) (w : Who) (r : Run) : Bool := !d.ordered r w.core.val && !d.fillMisses w

/-- The thread an instruction belongs to, when it can issue: its core runs a troupe, has not stopped and is under no order to stop, and the
thread holds an issue slot (R27, R47, R264). An instruction word outside the code region, a reserved word, and in a lead thread one that
R60 does not admit, raise ILLEGAL_INSTRUCTION; so do the instruction's own decode checks, whatever its predicate (R58). An instruction
that names a vector register a drain or a remote answer has not yet written waits (R28). A command for a thread that cannot issue changes
nothing. -/
def Dev.issue (w : Who) (leadOk : Bool) (regs : List Nat) (bad : Core → Run → Grp → Bool)
    (body : Core → Run → Grp → Dev) (d : Dev) : Dev :=
  let c := d.core w.core.val
  match c.run with
  | none => d
  | some r =>
    match r.thr w.thr with
    | none => d
    | some g =>
      if c.stopped || g.sched ≠ .active || !d.mayIssue w r then d
      else if !r.hdr.inCode g.pc || (thrIsLead w.thr && !leadOk) || d.reservedWord w r g || bad c r g then
        d.instError w c r g errIllegal
      else match thrDrain r w.thr regs with
        | some why => d.stall w c r g why
        | none => body c r g

/-- The registers a vector word names, pairs included: those of the fields its function uses (R28, R61). -/
def vopRegs (sh : VShape) (dest : Bool) (o : VOp) : List Nat :=
  let pair (x : Byte) : List Nat := if (VTy.ofCode o.ty).wide then [x.toNat, x.toNat + 1] else [x.toNat]
  (if dest then pair o.vd else []) ++ (if sh.s1 then pair o.vs1 else [])
    ++ (if sh.s2 && o.s2k = 0 then pair o.vs2 else []) ++ (if sh.s3 then pair o.vs3 else [])

/-- A vector instruction (R57, R66): nothing outside the effective mask; TYPE F64 is unavailable in walk-through, which an empty effective
mask does not show (DESIGN CHOICE, log 118). -/
def Dev.vector (w : Who) (o : VOp) (regs : List Nat) (bad : Run → Grp → Bool) (f64 : Bool)
    (body : Run → Grp → Mask → Grp) (d : Dev) : Dev :=
  d.issue w false regs (fun _ r g => bad r g) fun c r g =>
    let eff := g.eff o.pr
    if f64 && eff != 0 && r.walk then d.instError w c r g errFormat
    else d.putThr w c r (body r g eff).step

/-- A uniform, ring or system instruction or a control function executes once when the effective mask is not empty
(R57). -/
def Dev.uniform (w : Who) (pr : Pred) (bad : Core → Run → Grp → Bool) (body : Core → Run → Grp → Grp) (d : Dev) : Dev :=
  d.issue w true [] bad fun c r g =>
    if g.eff pr = 0 then d.putThr w c r g.step else d.putThr w c r (body c r g).step

end Sys2Proof.Machine
end

