-- ==== Sys2Proof/Machine/UnitOps.lean ====
section
/-! DEFINITION. The unit tree of a partition (12 R288, 19 R416), which units a kernel may use (02 R53, 10 R262), and the kernel
header (02 R51, R52, R40). -/

namespace Sys2Proof.Machine

open Sys2Proof

/-! ### Gangs (R288) -/

def Dev.gangValid (d : Dev) (p j : Nat) : Bool := d.get fPrtGangValid p j = 1
def Dev.gangTilesOwn (d : Dev) (p j : Nat) : Nat := d.get fPrtGangTiles p j

/-- The parent gang, none when it is the partition root. -/
def Dev.gangParent (d : Dev) (p j : Nat) : Option Nat :=
  if d.get fPrtGangRootParent p j = 1 then none else some (d.get fPrtGangParent p j)

/-- Does gang j lie under gang g, going up at most n steps? -/
def Dev.gangUnder (d : Dev) (p g : Nat) : Nat → Nat → Bool
  | 0, j => j = g
  | n + 1, j => j = g || (match d.gangParent p j with
      | some k => Dev.gangUnder d p g n k
      | none => false)

/-- The tiles of gang g, its child gangs included, in ascending device logical tile ID. -/
def Dev.gangTiles (d : Dev) (p g : Nat) : List Nat :=
  (List.range 48).filter fun t => (List.range 16).any fun j =>
    d.gangValid p j && d.gangUnder p g 16 j && (d.gangTilesOwn p j).testBit t

/-! ### Units (R416) -/

/-- Unit kinds of a troupe (R51). -/
def unitCore : Nat := 0
def unitCluster : Nat := 1
def unitTile : Nat := 2
def unitGang : Nat := 3

/-- The device logical cores of a LAUNCH_UNIT with its kind (4 for a partition root); none outside the partition's subtree
(R253, R416). -/
def Dev.launchCores (d : Dev) (p id : Nat) : Option (Nat × List Nat) :=
  let ts := d.tiles p
  if id < 768 then (if ts.contains (id / 16) then some (unitCore, [id]) else none)
  else if 0x1000 ≤ id && id < 0x1000 + 192 then
    let t := (id - 0x1000) / 4
    if ts.contains t then some (unitCluster, (List.range 4).map fun i => 16 * t + 4 * ((id - 0x1000) % 4) + i) else none
  else if 0x2000 ≤ id && id < 0x2000 + 48 then
    (if ts.contains (id - 0x2000) then some (unitTile, tileCores (id - 0x2000)) else none)
  else if 0x3000 + 16 * p ≤ id && id < 0x3000 + 16 * p + 16 then
    (if d.gangValid p (id % 16) then some (unitGang, (d.gangTiles p (id % 16)).flatMap tileCores) else none)
  else if id = 0x4000 + p then some (4, ts.flatMap tileCores)
  else none

/-- The units of the troupe's kind in a launch unit, each with its cores in logical order: a gang troupe spans the whole
gang that the command names (R40). -/
def unitsOfKind (kind lk : Nat) (cores : List Nat) : List (List Nat) :=
  if kind = unitGang then (if lk = unitGang then [cores] else [])
  else if kind = unitTile then
    (if 2 ≤ lk then ((cores.map (· / 16)).eraseDups).map tileCores else [])
  else if kind = unitCluster then
    (if 1 ≤ lk then ((cores.map (· / 4)).eraseDups).map (fun c => (List.range 4).map (4 * c + ·)) else [])
  else cores.map fun k => [k]

/-- Is a device logical tile reserved for real-time commands (R262)? Bit i names logical tile i of the partition. -/
def Dev.reservedTile (d : Dev) (p t : Nat) : Bool :=
  match (d.tiles p).idxOf? t with
  | some i => (d.get fClrRtReserveTiles p).testBit i
  | none => false

/-- Is a core eligible for a kernel (R53)? -/
def Core.eligible (c : Core) (h : Header) : Bool :=
  !c.withdrawn && h.minArrays ≤ c.arrayWidths.length
    && (h.arrayWidth = 0 || c.arrayWidths.all fun w => w = h.arrayWidth)

/-- A unit is eligible when all its cores are; a tile with a withdrawn core accepts core troupes only (R31, R53). -/
def Dev.unitEligible (d : Dev) (h : Header) (u : List Nat) : Bool :=
  u.all (fun k => (d.core k).eligible h)
    && (h.unit = unitCore || u.all fun k => (tileCores (k / 16)).all fun j => !(d.core j).withdrawn)

/-- The units a command may use (R53, R262): those of its launch unit, for a command that is not real-time only those with
no reserved tile. -/
def Dev.usableUnits (d : Dev) (p launch kind prio : Nat) : Option (List (List Nat)) :=
  (d.launchCores p launch).map fun (lk, cores) =>
    (unitsOfKind kind lk cores).filter fun u => prio = 0 || u.all fun k => !d.reservedTile p (k / 16)

/-- Cores in a unit of a kind under a launch unit: n of R40. -/
def unitCoreCount (kind : Nat) (launch : List Nat) : Nat :=
  if kind = unitCore then 1 else if kind = unitCluster then 4 else if kind = unitTile then 16 else launch.length

/-! ### The kernel header (R51, R52) -/

/-- A ring table entry. -/
def ringOf (w0 w1 : Nat) : Ring :=
  { base := natBitsAt w0 0 20, slots := natBitsAt w0 20 8 + 1, slotSize := 128 * natBitsAt w0 28 12,
    consumers := natBitsAt w0 40 7, leadEntry := natBitsAt w1 0 32, next := 0, fills := [] }

/-- The header's fields, from its eight words and its ring table's words. -/
def headerOf (ws : List Nat) (rs : List Ring) : Header :=
  let w1 := ws.getD 1 0
  let dv := natBitsAt w1 25 9
  { vregs := 8 * natBitsAt w1 0 6, unit := natBitsAt w1 6 3, groups := natBitsAt w1 9 16,
    maxDiverge := max 32 dv, nearCache := natBitsAt w1 34 5, arrayWidth := natBitsAt w1 39 6, minArrays := natBitsAt w1 45 3,
    followEntry := natBitsAt (ws.getD 2 0) 0 32, codeWords := natBitsAt (ws.getD 2 0) 32 32,
    scratchBytes := natBitsAt (ws.getD 3 0) 0 20, rings := rs }

def Ring.bytes (r : Ring) : Nat := r.slots * r.slotSize

/-- Rings lie below SCRATCH_BYTES and do not overlap. -/
def ringsApart : List Ring → Bool
  | [] => true
  | r :: t => t.all (fun s => r.base + r.bytes ≤ s.base || s.base + s.bytes ≤ r.base) && ringsApart t

/-- The header rules (R33, R40, R51, R52), but those of ARRAY_WIDTH and MIN_ARRAYS, which R53 decides. -/
def Header.bad (h : Header) (ws : List Nat) (n : Nat) : Bool :=
  let w0 := ws.getD 0 0
  let w1 := ws.getD 1 0
  natBitsAt w0 0 32 ≠ 0x4A4C4B31 || natBitsAt w0 32 8 ≠ 1 || h.vregs = 0 || h.vregs > 256 || h.unit > 3 || h.groups = 0
    || natBitsAt w1 25 9 > 256 || h.nearCache > 16 || natBitsAt w1 48 5 > 16 || h.scratchBytes % 128 ≠ 0
    || !h.inCode h.followEntry || n = 0 || h.groups % n ≠ 0 || h.groups / n > min 64 (4096 / max 1 h.vregs)
    || h.rings.any (fun r => r.base % 128 ≠ 0 || r.slots < 2 || r.slotSize = 0 || r.consumers = 0
        || r.consumers > h.groups / n || !h.inCode r.leadEntry || r.base + r.bytes > h.scratchBytes)
    || !ringsApart h.rings

end Sys2Proof.Machine
end

