-- ==== Sys2Proof/Machine/Admit.lean ====
section
/-! DEFINITION. Dispatch of a command (10 R242, R250 to R258, 05 R139, R140, 09 R233, 14 R340 to R344): what the Caller reads, relocates
and checks before an engine starts. -/

namespace Sys2Proof.Machine

open Sys2Proof

/-! ### Reading through the range table -/

/-- Bytes at a virtual address as the Caller's dispatch reads them: their value, whether poisoned, and the lines read; or the first
address read in each page whose translation is missing; or outside memory (a WINDOW range, log 16). -/
inductive VaRead where
  | ok (bytes : List Byte) (poison : Bool) (lines : List Nat)
  | miss (vas : List Nat)
  | outside
  deriving DecidableEq, Repr

/-- The Caller's walks are tile 48 of the walks. -/
def callerTile : Nat := 48

def Dev.vaRead (d : Dev) (ctx : Nat) (va n : Nat) : VaRead :=
  let pages := (List.range ((va + n + 4095) / 4096 - va / 4096)).map (va / 4096 + ·)
  let missing := pages.filter fun g => (d.lookup callerTile ctx g .read).isNone
  if 2 ^ 57 < va + n then .outside
  else if missing ≠ [] then .miss (missing.map fun g => max va (4096 * g))
  else
    let parts := pages.map fun g =>
      let lo := max va (4096 * g)
      let hi := min (va + n) (4096 * g + 4096)
      match d.lookup callerTile ctx g .read with
      | some x => if x.window.isSome then none else some (x.phys lo, hi - lo)
      | none => none
    if parts.any (·.isNone) then .outside
    else
      let ps := parts.filterMap id
      let rs := ps.map fun (pa, k) => d.peek pa k
      .ok (rs.flatMap (·.1)) (rs.any (·.2)) (ps.flatMap fun (pa, k) => linesOf pa k)

/-! ### Accumulating checks (R258) -/

/-- The checks of R258 that failed, addresses to walk for, and lines read. -/
structure Chk where
  poison : Bool
  illegal : Bool
  handle : Bool
  range : Bool
  width : Bool
  misses : List Nat
  lines : List Nat
  /-- addresses of outputs whose walk ended with TABLE_ERROR: each takes a record (R226) -/
  tables : List Nat
  deriving DecidableEq, Repr

def Chk.none : Chk :=
  { poison := false, illegal := false, handle := false, range := false, width := false, misses := [], lines := [], tables := [] }

def Chk.and (a b : Chk) : Chk :=
  { poison := a.poison || b.poison, illegal := a.illegal || b.illegal, handle := a.handle || b.handle,
    range := a.range || b.range, width := a.width || b.width, misses := a.misses ++ b.misses, lines := a.lines ++ b.lines,
    tables := a.tables ++ b.tables }

/-- The code of the first failed check in R258's order. -/
def Chk.code (c : Chk) : Option Nat :=
  if c.poison then some errUncorrectable
  else if c.illegal then some errIllegal
  else if c.handle then some errHandle
  else if c.range then some errRangeFault
  else if c.width then some 0x0403
  else Option.none

def Chk.illegalIf (b : Bool) : Chk := { Chk.none with illegal := b }
def Chk.rangeIf (b : Bool) : Chk := { Chk.none with range := b }

/-- The lines that a relocation reads (R306). -/
def Dev.handleLines (d : Dev) (p ctx href : Nat) : List Nat :=
  [d.ctxAt p ctx / 64, d.handleAt p ctx (natBitsAt href 0 32) / 64]

/-- A relocation as a check: its address, 0 where it fails. -/
def Dev.reloc (d : Dev) (p ctx href rights extent align : Nat) : Nat × Chk :=
  let ls := d.handleLines p ctx href
  match d.relocate p ctx href rights extent align with
  | .ok va => (va, { Chk.none with lines := ls })
  | .bad => (0, { Chk.none with handle := true, lines := ls })
  | .poison => (0, { Chk.none with poison := true, lines := ls })

/-- Reading n bytes at a relocated address: nothing is read where an earlier check of it failed. -/
def Dev.chkRead (d : Dev) (ctx va n : Nat) (c : Chk) : List Byte × Chk :=
  if c.code ≠ Option.none || n = 0 then ([], c)
  else match d.vaRead ctx va n with
    | .ok bs bad ls => (bs, c.and { Chk.none with poison := bad, lines := ls })
    | .miss ps => ([], c.and { Chk.none with misses := ps })
    | .outside => ([], c.and (Chk.rangeIf true))

/-- A fence HREF of a command (R269): none, a place, or a failed check. -/
def Dev.chkFence (d : Dev) (p ctx href : Nat) : Option FencePlace × Chk :=
  if isNone href then (Option.none, Chk.none)
  else
    let (va, c) := d.reloc p ctx href rightFence 64 64
    if c.code ≠ Option.none then (Option.none, c)
    else match d.fenceOf p ctx va with
      | some pl => (some pl, c)
      | Option.none => (Option.none, c.and (Chk.rangeIf true))

def wordsOf (bs : List Byte) (n : Nat) : List Nat := (List.range n).map fun i => leNat ((bs.drop (8 * i)).take 8)

/-! ### Outputs (R233, R252) -/

def outMode (m : Nat) : OutMode := if m = 0 then .cow else if m = 1 then .overwrite else .inplace

/-- An output descriptor's two words checked (R252): the output without its table, 0 where a check failed. -/
def Dev.chkOutput (d : Dev) (p ctx w0 w1 : Nat) : Output × Chk :=
  let len := natBitsAt w1 0 48
  let mode := natBitsAt w1 48 2
  let (va, c) := d.reloc p ctx w0 rightWrite len 4096
  let c := c.and (Chk.illegalIf (len = 0 || len % 4096 ≠ 0 || mode = 3))
  let o : Output := { va := va, len := len, mode := outMode mode, table := 0, rangePage := 0, shadows := [] }
  if c.code ≠ Option.none then (o, c)
  else match d.walk p ctx (va / 4096) with
    | (.fault cause, ls) =>
      (o, c.and { Chk.none with range := true, lines := ls, tables := if cause = causeTable then [va] else [] })
    | (.entry x, ls) =>
      let c := c.and { Chk.none with lines := ls }
      let whole := x.rangePage * 4096 = va && x.rangePages * 4096 = len
      let within := va + len ≤ (x.rangePage + x.rangePages) * 4096
      let ok := if o.mode = .inplace then within && x.write else x.granular && whole && x.write && x.sole
      ({ o with table := x.word - 8 * ((va / 4096 - x.rangePage) / 16), rangePage := x.rangePage }, c.and (Chk.rangeIf (!ok)))

def outputsApart : List Output → Bool
  | [] => true
  | o :: t => t.all (fun o2 => !o.overlaps o2) && outputsApart t

/-- A list of output descriptors. -/
def Dev.chkOutputs (d : Dev) (p ctx : Nat) : List (Nat × Nat) → List Output × Chk
  | [] => ([], Chk.none)
  | (w0, w1) :: t =>
    let (o, c) := d.chkOutput p ctx w0 w1
    let (os, c2) := Dev.chkOutputs d p ctx t
    (o :: os, c.and c2)

/-! ### Kernel (R51 to R53, R137 to R140, R253) -/

def pairUp : List Nat → List (Nat × Nat)
  | a :: b :: t => (a, b) :: pairUp t
  | _ => []

/-- The kernel binary (R51, R52): its header is read where its 64 bytes relocate, its ring table where that does too, and its code for
poison where the whole extent does (R216; DEDUCED, log 27). The header's words are none where it could not be read. -/
def Dev.chkHeader (d : Dev) (p ctx : Nat) (c : Cmd) : Nat × Header × List Nat × Chk :=
  let extent (n : Nat) : Chk := (d.reloc p ctx (c.word 3) (rightRead ||| rightExec) n 64).2
  let (kva, k) := d.reloc p ctx (c.word 3) (rightRead ||| rightExec) 64 64
  let (hb, k) := d.chkRead ctx kva 64 k
  if hb = [] then (kva, headerOf [] [], [], k)
  else
    let ws := wordsOf hb 8
    let nr := natBitsAt (ws.getD 1 0) 48 5
    let h0 := headerOf ws []
    if nr > 16 then (kva, h0, ws, k)
    else
      let (rb, kr) := d.chkRead ctx (kva + 64) (16 * nr) (extent (64 + 16 * nr))
      let kc := (d.chkRead ctx (kva + 64 + 16 * nr) (8 * h0.codeWords) (extent (64 + 16 * nr + 8 * h0.codeWords))).2
      (kva, headerOf ws ((pairUp (wordsOf rb (if rb = [] then 0 else 2 * nr))).map fun w => ringOf w.1 w.2), ws, (k.and kr).and kc)

/-- Argument words, those with an ARG_RELOC bit relocated with extent 1 and no right (R253). -/
def Dev.chkArgs (d : Dev) (p ctx : Nat) (rel : Nat) : List Nat → Nat → List W64 × Chk
  | [], _ => ([], Chk.none)
  | w :: t, i =>
    let (x, c) := if rel.testBit i then d.reloc p ctx w 0 1 1 else (w, Chk.none)
    let (xs, c2) := Dev.chkArgs d p ctx rel t (i + 1)
    (BitVec.ofNat 64 x :: xs, c.and c2)

/-- The stream that a KERNEL names (R140, R253). -/
def Cmd.stream (c : Cmd) : Nat := natBitsAt (c.word 4) 32 4

/-- The largest sequence number held by a KERNEL of a stream of a context (R140). -/
def Dev.heldSeq (d : Dev) (ctx stream : Nat) : Option Nat :=
  let ks := d.allCmds.filterMap fun (q, c) =>
    if (d.queue q).ctx = ctx && c.stream = stream then c.seq.map BitVec.toNat else Option.none
  if ks = [] then Option.none else some (ks.foldl max 0)

/-- The address of STREAM_CTR[s], and of CONTEXT_SEED (R139). -/
def Dev.streamAt (d : Dev) (p ctx s : Nat) : Nat := d.ctxAt p ctx + 256 + 8 * (1 + s)
def Dev.seedAt (d : Dev) (p ctx : Nat) : Nat := d.ctxAt p ctx + 256

def Dev.nextSeq (d : Dev) (p ctx s : Nat) : Nat :=
  let c := d.peekWord (d.streamAt p ctx s)
  match d.heldSeq ctx s with
  | some q => max c (q + 1)
  | Option.none => c

/-- A command enters DISPATCH (R257): a KERNEL takes its sequence number at its first entry and keeps it (R140). A slot whose first line
was poisoned names no stream, and takes none. -/
def Dev.enterDispatch (d : Dev) (x : Queue) (c : Cmd) : Cmd :=
  { c with
    st := .dispatch
    seq := if c.type = tyKernel && c.seq = none then some (BitVec.ofNat 64 (d.nextSeq x.part x.ctx c.stream)) else c.seq }

def Dev.admitKernel (d : Dev) (p ctx prio : Nat) (c : Cmd) : Body × List Output × Chk :=
  let launch := natBitsAt (c.word 4) 0 32
  let stream := c.stream
  let threads := natBitsAt (c.word 5) 0 48
  let nOut := natBitsAt (c.word 7) 0 5
  let nArg := natBitsAt (c.word 7) 8 7
  let slotBad := threads = 0 || nOut > 16 || nArg > 64
  let (kva, h, ws, kh) := d.chkHeader p ctx c
  let cores := ((d.launchCores p launch).map (·.2)).getD []
  let n := unitCoreCount h.unit cores
  let units := d.usableUnits p launch h.unit prio
  let hdrRead := ws ≠ []
  let kh := kh.and (Chk.illegalIf
    ((d.launchCores p launch).isNone || (hdrRead && (h.bad ws n || (prio ≠ 0 && (units.getD []) = [])))))
  let kw : Chk := { Chk.none with width := hdrRead && !((units.getD []).any fun u => d.unitEligible h u) }
  let (ova, ko) := if nOut = 0 || nOut > 16 then (0, Chk.none) else d.reloc p ctx (c.word 8) rightRead (16 * nOut) 16
  let (ob, ko) := if nOut = 0 || nOut > 16 then ([], ko) else d.chkRead ctx ova (16 * nOut) ko
  let (outs, kouts) := d.chkOutputs p ctx (pairUp (wordsOf ob (if ob = [] then 0 else 2 * nOut)))
  let (ava, ka) := if nArg = 0 || nArg > 64 then (0, Chk.none) else d.reloc p ctx (c.word 9) rightRead (8 * nArg) 8
  let (ab, ka) := if nArg = 0 || nArg > 64 then ([], ka) else d.chkRead ctx ava (8 * nArg) ka
  let (args, kargs) := d.chkArgs p ctx (c.word 10) (wordsOf ab (if ab = [] then 0 else nArg)) 0
  let groups := (threads + 63) / 64
  let (sb, sbad) := d.peek (d.seedAt p ctx) 8
  let seed := if c.word 6 = 0 then leNat sb else c.word 6
  let kseed : Chk := { Chk.none with poison := sbad || (d.peek (d.streamAt p ctx stream) 8).2,
                                     lines := [d.seedAt p ctx / 64, d.streamAt p ctx stream / 64] }
  let k : KernelJob :=
    { kva := kva, hdr := h, unit := launch, stream := stream, threads := threads, seed := BitVec.ofNat 64 seed,
      seq := c.seq.getD 0, args := args,
      troupes := (groups + h.groups - 1) / max 1 h.groups, next := 0, ended := 0, units := [] }
  (.kernel k, outs,
   (((((((Chk.illegalIf slotBad).and kh).and kw).and ko).and kouts).and ka).and kargs).and
     (kseed.and (Chk.rangeIf (!outputsApart outs))))

/-! ### Copy, fill, collective -/

def Dev.admitMove (d : Dev) (p ctx : Nat) (fill : Bool) (c : Cmd) : Body × List Output × Chk :=
  let rb := natBitsAt (c.word 5) 0 32
  let rows := natBitsAt (c.word 5) 32 32
  let ext (stride : Nat) : Nat := (rows - 1) * stride + rb
  let ss := c.word 6
  let ds := c.word 7
  let (src, ks) := if fill then (0, Chk.none) else d.reloc p ctx (c.word 3) rightRead (ext ss) 1
  let (dst, kd) := d.reloc p ctx (c.word 4) rightWrite (ext ds) 1
  let (o, ko) := d.chkOutput p ctx (c.word 8) (c.word 9)
  (if fill then .fill (BitVec.ofNat 64 (c.word 3)) dst rb rows ds 0 else .copy src dst rb rows ss ds 0, [o],
   (((Chk.illegalIf (rb = 0 || rows = 0)).and ks).and kd).and ko)

/-- Operations of a COLLECTIVE with the formats they admit (R340). -/
def collReduces (op : Nat) : Bool := 1 ≤ op && op ≤ 4
def collFormatOk (op ty : Nat) : Bool :=
  if collReduces op then ty ≤ 3 || ty = 7 || ty = 8 else (op = 0x10 || op = 0x11) && ty ≤ 8

/-- Bytes of an element. -/
def elemBytes (ty : Nat) : Nat := cvtWidth ty / 8

/-- s of R342: elements of a shard. -/
def shardLen (elements n : Nat) : Nat := (elements + n - 1) / n

def memberOf (w0 w1 : Nat) : Member :=
  { module_ := natBitsAt w0 0 12, dstWin := natBitsAt w0 16 16, stgWin := natBitsAt w0 32 16, key := natBitsAt w1 0 32 }

/-- The bridge whose engine runs a COLLECTIVE: that of the middle bridge of the quadrant of the stack that homes DST's first
line, or bridge 1 for LPDDR5X (14, The collective engine). -/
def Dev.collBridge (d : Dev) (p ctx dst : Nat) : Nat :=
  match d.walk p ctx (dst / 4096) with
  | (.entry x, _) => if x.window.isNone && isHbm (x.phys dst) then 3 * ((d.hbmPlace (x.phys dst)).1 / 6) + 1 else 1
  | _ => 1

def Dev.admitCollective (d : Dev) (p ctx : Nat) (c : Cmd) : Body × List Output × Chk :=
  let elements := natBitsAt (c.word 5) 0 48
  let op := natBitsAt (c.word 6) 0 8
  let ty := natBitsAt (c.word 6) 8 4
  let ordered := (c.word 6).testBit 12
  let es := elemBytes ty
  let (gva, kg) := d.reloc p ctx (c.word 7) rightRead 32 1
  let (gb, kg) := d.chkRead ctx gva 32 kg
  let gw := wordsOf gb 4
  let n := natBitsAt (gw.getD 0 0) 0 12 + 1
  let (_, kg2) := if gb = [] then (0, Chk.none) else d.reloc p ctx (c.word 7) rightRead (32 + 16 * n) 1
  let (mb, kg) := if gb = [] then ([], kg) else d.chkRead ctx (gva + 32) (16 * n) (kg.and kg2)
  let ms := (pairUp (wordsOf mb (if mb = [] then 0 else 2 * n))).map fun w => memberOf w.1 w.2
  let s := shardLen elements n
  let rank := natBitsAt (gw.getD 0 0) 12 12
  let own := min ((rank + 1) * s) elements - min (rank * s) elements
  let dstLen := if op = 0x10 then n * elements * es else if op = 4 then own * es else elements * es
  let (src, ks) := d.reloc p ctx (c.word 3) rightRead (elements * es) 1
  let (dst, kd) := d.reloc p ctx (c.word 4) rightWrite dstLen 1
  let staged := ordered && collReduces op
  let (stg, kst) := if staged && gb ≠ [] then d.reloc p ctx (gw.getD 3 0) rightRead (2 * n * s * es) 1 else (0, Chk.none)
  let (o, ko) := d.chkOutput p ctx (c.word 8) (c.word 9)
  let j : CollJob :=
    { src := src, dst := dst, elements := elements, op := op, dtype := ty, ordered := ordered, n := n,
      rank := rank, root := natBitsAt (gw.getD 0 0) 24 12, group := natBitsAt (gw.getD 1 0) 0 16,
      epoch := gw.getD 2 0, staging := if staged then some stg else Option.none, members := ms,
      bridge := d.collBridge p ctx dst, own := 0, sent := 0, added := 0, combined := 0, spread := 0,
      done := false }
  (.collective j, [o],
   ((((((Chk.illegalIf (elements = 0 || !collFormatOk op ty)).and kg).and ks).and kd).and kst).and ko).and
     (Chk.rangeIf (o.mode ≠ .inplace)))

/-! ### The commands of the signal unit -/

def Dev.admitWait (d : Dev) (p ctx : Nat) (c : Cmd) : Body × List Output × Chk :=
  let (va, k) := d.reloc p ctx (c.word 3) rightFence 64 64
  match d.fenceOf p ctx va with
  | some (.local_ pa) => (.wait va (.local_ pa) (BitVec.ofNat 64 (c.word 4)), [], k)
  | _ => (.wait va (.local_ 0) (BitVec.ofNat 64 (c.word 4)), [], k.and (Chk.rangeIf true))

def Dev.admitSignal (d : Dev) (p ctx : Nat) (c : Cmd) : Body × List Output × Chk :=
  let (va, k) := d.reloc p ctx (c.word 3) rightFence 64 64
  match d.fenceOf p ctx va with
  | some pl => (.signal va pl (BitVec.ofNat 64 (c.word 4)), [], k)
  | Option.none => (.signal va (.local_ 0) (BitVec.ofNat 64 (c.word 4)), [], k.and (Chk.rangeIf true))

def admitRangeSync (c : Cmd) : Body × List Output × Chk :=
  let w6 := c.word 6
  (.rangeSync (BitVec.ofNat 64 (c.word 3)) (natBitsAt (c.word 4) 0 45) (natBitsAt (c.word 5) 0 45)
    (if w6.testBit 63 then some (natBitsAt w6 0 40) else Option.none) false false, [], Chk.none)

def Dev.admitMarker (d : Dev) (p ctx : Nat) (c : Cmd) : Body × List Output × Chk :=
  let (va, k) := if isNone (c.word 3) then (0, Chk.none) else d.reloc p ctx (c.word 3) rightWrite 8 8
  (.marker (if isNone (c.word 3) then Option.none else some va) 0 false, [], k.and (Chk.illegalIf c.indep))

/-- Does a class admit a type (R251)? -/
def classAdmits (cls : QClass) (priv : Bool) (ty : Nat) : Bool :=
  if ty = tyKernel then cls = .compute
  else if ty = tyCopy || ty = tyFill then cls = .copy
  else if ty = tyCollective then cls = .collective
  else if ty = tyRangeSync then priv && cls ≠ .collective
  else ty = tyWait || ty = tySignal || ty = tyMarker

def Dev.admitBody (d : Dev) (p ctx prio : Nat) (c : Cmd) : Body × List Output × Chk :=
  let ty := c.type
  if ty = tyKernel then d.admitKernel p ctx prio c
  else if ty = tyCopy then d.admitMove p ctx false c
  else if ty = tyFill then d.admitMove p ctx true c
  else if ty = tyCollective then d.admitCollective p ctx c
  else if ty = tyWait then d.admitWait p ctx c
  else if ty = tySignal then d.admitSignal p ctx c
  else if ty = tyRangeSync then admitRangeSync c
  else if ty = tyMarker then d.admitMarker p ctx c
  else (.undispatched, [], Chk.illegalIf true)

/-- Everything DISPATCH decides of a command: its body, outputs, completion fence and checks. A slot read from a poisoned
line has no words. -/
def Dev.examine (d : Dev) (x : Queue) (c : Cmd) : Body × List Output × Option FencePlace × Chk :=
  if c.words = [] then (.undispatched, [], Option.none, { Chk.none with poison := true })
  else if c.words.length < 16 then
    (.undispatched, [], (d.chkFence x.part x.ctx (c.word 1)).1, { Chk.none with poison := true })
  else
    let (fence, kf) := d.chkFence x.part x.ctx (c.word 1)
    if !classAdmits x.cls x.priv c.type then
      (.undispatched, [], fence, kf.and (Chk.illegalIf true))
    else
      let (body, outs, k) := d.admitBody x.part x.ctx x.prio c
      (body, outs, fence, kf.and k)

/-- A command whose checks have passed is dispatched: it waits for its fence or for an overlapping output, or is READY. -/
def Dev.dispatched (d : Dev) (q : Nat) (c : Cmd) (body : Body) (outs : List Output) (fence : Option FencePlace) : Dev :=
  let d := d.tick
  let x := d.queue q
  let va := match d.relocate x.part x.ctx (c.word 1) rightFence 64 64 with
    | .ok va => va
    | _ => 0
  let c := { c with body := body, outputs := outs, fence := fence, dispatched := d.clock, fenceVa := va }
  let d := d.putCmd q c
  match body with
  | .wait _ _ _ => d.decideWait q c
  | _ => if d.overlapWaits q c then d.putCmd q { c with st := .waiting } else d.makeReady q c

/-- May a HELD command be dispatched (R256)? -/
def Queue.mayDispatch (x : Queue) (c : Cmd) : Bool :=
  let before := x.cmds.takeWhile fun y => y.slot ≠ c.slot
  x.st = .active && (c.st = .held || c.st = .dispatch) && (c.indep || before = [])
    && before.all fun y => y.st ≠ .held && y.st ≠ .dispatch

/-- COMMAND_DISPATCH: the command enters DISPATCH, and stays there while walks for missing pages stall it or its reads find no
token. A TABLE_ERROR that the check of an output meets takes its record, as a write's (R226). -/
def Dev.dispatchCmd (q slot : Nat) (d : Dev) : Dev :=
  match d.cmd? q slot with
  | none => d
  | some c =>
    let x := d.queue q
    if !x.mayDispatch c then d
    else
      let c := d.enterDispatch x c
      let d := d.putCmd q c
      let (body, outs, fence, k) := d.examine x c
      if k.misses ≠ [] && !k.poison then
        k.misses.foldl (fun d va => d.miss callerTile x.ctx (va / 4096)
          { q := q, slot := slot, slotRead := false, who := none, access := .read, fill := false, va := va }) d
      else match Dev.pocLines (d.callerRq x.part x.ctx) k.lines.eraseDups d with
        | none => d
        | some (_, d) =>
          match k.code with
          | some e =>
            let d := k.tables.foldl (fun d va => d.errorRecord x.part q causeTable va (accessBits .write) false) d
            (d.putCmd q { c with fence := fence }).endCmd q slot e
          | none => d.dispatched q c body outs fence

end Sys2Proof.Machine
end

