-- ==== Sys2Proof/Machine/Ops.lean ====
section
/-! DEFINITION. How a command's effect on the device becomes an outcome: every command answers a next state. -/

namespace Sys2Proof.Machine

open Sys2Proof

abbrev Out := Host.Outcome State Fault Refusal

/-- A command of a device that is not held at level 4 (R376). -/
def State.live (s : State) (f : Dev → Dev) : Out :=
  if s.dev.halted then .next s else .next { s with dev := f s.dev }

/-- An event at a pin, the sideband or the module's test port, which acts at level 4 too (R363, R376, R430). -/
def State.always (s : State) (f : Dev → Dev) : Out := .next { s with dev := f s.dev }

/-- Stand-alone test, which stays usable when bring-up has stopped (R398). -/
def State.test (s : State) (f : Dev → Dev) : Out :=
  if s.dev.halted && !(6 ≤ s.dev.get fMntBootStatStage) then .next s else .next { s with dev := f s.dev }

end Sys2Proof.Machine
end

