-- ==== Sys2Proof/Machine/MatrixOps.lean ====
section
/-! DEFINITION. The matrix arrays' data: formats (04 R97), wide accumulators (R109), products and block sums (R110, R111),
fragments, tiles and gathered rows (R100 to R104), bindings and banks (R105 to R108). -/

namespace Sys2Proof.Machine

open Sys2Proof

/-- The operand formats MMA and WLOAD admit (R84, R85). -/
def mmaFmtOk (c : Nat) : Bool := (2 ≤ c && c ≤ 6) || (9 ≤ c && c ≤ 14)

/-- Walk-through runs BF16 and FP16 only (R91). -/
def mmaUnavailable (c : Nat) : Bool := !(c = 2 || c = 3)

def mmaIsMx (c : Nat) : Bool := 9 ≤ c

/-- The element width b (R97). -/
def mmaBits (c : Nat) : Nat :=
  if c = 2 || c = 3 then 16 else if c = 11 || c = 12 then 6 else if c = 13 then 4 else 8

/-- The element registers of an activation fragment, and with the scale register of an MX format (R97, R100). -/
def fragRegs (c : Nat) : Nat := mmaBits c / 2 + (if mmaIsMx c then 1 else 0)

/-- Weight tile bytes (R97, R102). -/
def tileBytes (c : Nat) : Nat := 32 * (4 * mmaBits c) + (if mmaIsMx c then 32 else 0)

/-- Gathered row bytes (R97, R103). -/
def rowBytes (c : Nat) : Nat := 4 * mmaBits c + (if mmaIsMx c then 1 else 0)

/-- The value of an element code (R120): INT8 as an integer, MXINT8 as the code times 2^-6. -/
def elemValue (c bits : Nat) : Fp :=
  match fmtOfCode c with
  | some f => Fp.decode f bits
  | none =>
    let i := sextNat 8 bits
    .fin (decide (i < 0)) i.natAbs (if c = 14 then -6 else 0)

/-- The value of a wide accumulator (R109). -/
def Wide.value (a : Wide) : Fp :=
  match a.tag with
  | .nan => .nan
  | .posInf => .inf false
  | .negInf => .inf true
  | .finite => .fin a.neg a.f.toNat ((max a.e.toNat 1 : Nat) - (166 : Int))

/-- +0, what INIT 1 starts every accumulator at (R109). -/
def Wide.zero : Wide := { neg := false, e := 0, f := 0, tag := .finite }

/-- One rounding to the accumulator's representation (R109): nearest-even, saturating. -/
def Wide.ofFp : Fp → Wide
  | .nan => { neg := false, e := 0, f := 0, tag := .nan }
  | .inf neg => { neg := false, e := 0, f := 0, tag := if neg then .negInf else .posInf }
  | .fin neg m e =>
    let q := max (-165 : Int) (e + (natBits m : Int) - 40)
    let n := if q ≤ e then m * 2 ^ (e - q).toNat else shiftRne m (q - e).toNat false
    let q' := if n = 2 ^ 40 then q + 1 else q
    let n' := if n = 2 ^ 40 then 2 ^ 39 else n
    if q' > 89 then { neg := neg, e := 255, f := BitVec.allOnes 40, tag := .finite }
    else if n' < 2 ^ 39 then { neg := neg, e := 0, f := BitVec.ofNat 40 n', tag := .finite }
    else { neg := neg, e := BitVec.ofNat 8 (q' + 166).toNat, f := BitVec.ofNat 40 n', tag := .finite }

/-- An exact addition rounded once (R109, R111). -/
def Wide.add (a : Wide) (x : Fp) : Wide := Wide.ofFp (Fp.add a.value x)

/-- Element k of a weight tile's column n (R102). -/
def tileElem (c : Nat) (tile : List Byte) (k n : Nat) : Nat :=
  let b := mmaBits c
  natBitsAt (leNat ((tile.drop (n * (4 * b))).take (4 * b))) (b * k) b

/-- The scale byte of column n of an MX tile (R102). -/
def tileScale (c : Nat) (tile : List Byte) (n : Nat) : Nat :=
  (tile.getD (32 * (4 * mmaBits c) + n) 0).toNat

/-- A block sum scaled by 2^(scale_A + scale_W - 254) (R110); a scale of 0xFF makes it NaN (R111). -/
def scaleBlock (x : Fp) (sa sw : Nat) : Fp :=
  if sa = 255 || sw = 255 then .nan
  else match x with
    | .fin neg m e => .fin neg m (e + (sa : Int) + (sw : Int) - 254)
    | y => y

/-- One chunk added into accumulator (m, n) in canonical order (R110): each product on its own, or the scaled exact block
sum for an MX format. -/
def accumulate (c : Nat) (tile : List Byte) (row : List Nat × Nat) (n : Nat) (a : Wide) : Wide :=
  let prods := (List.range 32).map fun k =>
    Fp.mul (elemValue c (row.1.getD k 0)) (elemValue c (tileElem c tile k n))
  if mmaIsMx c then
    a.add (scaleBlock (prods.foldl Fp.add (.fin false 0 0)) row.2 (tileScale c tile n))
  else prods.foldl Wide.add a

/-- All products of one MMA added into a chain's bank, over the presented columns (R110, R117). -/
def Bank.applyMac (b : Bank) (c : Nat) (tile : List Byte) (rows : List (List Nat × Nat)) (width : Nat) : Bank :=
  { b with acc := (List.range 32).foldl (fun acc m =>
      (List.range width).foldl (fun acc n =>
        smapPut acc (32 * m + n) (accumulate c tile (rows.getD m ([], 0)) n (smapGet acc (32 * m + n) Wide.zero))) acc) b.acc }

/-- The fragment of thread t as one little-endian bit string (R100). -/
def Grp.fragment (g : Grp) (va n t : Nat) : Nat :=
  (List.range n).foldl (fun s j => s + (g.vreg (va + j) t).toNat * 2 ^ (32 * j)) 0

/-- The activation rows of an MMA that does not gather (R100, R104). -/
def Grp.actRows (g : Grp) (c va : Nat) : List (List Nat × Nat) :=
  let b := mmaBits c
  let n := b / 2
  (List.range 32).map fun m =>
    let lo := g.fragment va n m
    let hi := g.fragment va n (m + 32)
    (((List.range 16).map fun i => natBitsAt lo (b * i) b) ++ ((List.range 16).map fun i => natBitsAt hi (b * i) b),
      if mmaIsMx c then (g.vreg (va + n) m).toNat % 256 else 0)

/-- A gathered row's elements and scale (R103). -/
def gatherRow (c : Nat) (bytes : List Byte) : List Nat × Nat :=
  let b := mmaBits c
  let v := leNat (bytes.take (4 * b))
  ((List.range 32).map fun k => natBitsAt v (b * k) b, (bytes.getD (4 * b) 0).toNat)

/-- The values INIT 2 loads for the k-th array of AMASK, columns below the array's width (R84, R101, R117). -/
def Grp.initAcc (g : Grp) (vd k width : Nat) : SMap Wide :=
  (List.range 32).foldl (fun acc m => (List.range width).foldl (fun acc n =>
    smapPut acc (32 * m + n)
      (Wide.ofFp (Fp.decode fpF32 (g.vreg (vd + 16 * k + n % 16) (m + 32 * (n / 16))).toNat))) acc) []

/-- What a drain writes for (m, n) (R112, R117): the rounded accumulator, +0.0 beyond the width. -/
def Bank.drainRes (b : Bank) (bf16 : Bool) (width m n : Nat) : FpRes :=
  if n < width then Fp.round (if bf16 then fpBf16 else fpF32) (smapGet b.acc (32 * m + n) Wide.zero).value
  else fpNoSat 0

/-- The drain into the group's registers, all 64 threads (R101, R104, R112). -/
def Grp.writeDrain (g : Grp) (b : Bank) (dr : Drain) : Grp :=
  let at_ (t j : Nat) : Nat := (b.drainRes dr.bf16 dr.width (t % 32) (16 * (t / 32) + j)).bits
  if dr.bf16 then
    (List.range 8).foldl (fun g j =>
      g.setVreg (dr.vd + j) maskAll fun t => BitVec.ofNat 32 (at_ t (2 * j) + 2 ^ 16 * at_ t (2 * j + 1))) g
  else
    (List.range 16).foldl (fun g j => g.setVreg (dr.vd + j) maskAll fun t => BitVec.ofNat 32 (at_ t j)) g

/-- A drain with STAT counts the presented columns (R113). -/
def Grp.countDrain (g : Grp) (b : Bank) (dr : Drain) : Grp :=
  if dr.stat then
    g.countElems ((List.range 32).flatMap fun m => (List.range dr.width).map fun n =>
      let r := b.drainRes dr.bf16 dr.width m n
      let x := Fp.decode (if dr.bf16 then fpBf16 else fpF32) r.bits
      { zero := x.isZero, sat := r.sat, nonfinite := x.nonFinite })
  else g

/-! ### Arrays of a run -/

def Bank.free : Bank := { st := .free, acc := [] }
def WeightBuf.empty : WeightBuf := { owner := none, fmt := 0, tile := [] }

/-- An array at troupe start (R105, R106, R109). -/
def ArrayRun.start : ArrayRun :=
  { binding := .free, buf0 := .empty, buf1 := .empty, bank0 := .free, bank1 := .free, ops := [] }

def ArrayRun.buf (a : ArrayRun) (b : Bool) : WeightBuf := if b then a.buf1 else a.buf0
def ArrayRun.setBuf (a : ArrayRun) (b : Bool) (w : WeightBuf) : ArrayRun :=
  if b then { a with buf1 := w } else { a with buf0 := w }
def ArrayRun.bank (a : ArrayRun) (b : Bool) : Bank := if b then a.bank1 else a.bank0
def ArrayRun.setBank (a : ArrayRun) (b : Bool) (x : Bank) : ArrayRun :=
  if b then { a with bank1 := x } else { a with bank0 := x }

/-- A free bank, if there is one (R108). -/
def ArrayRun.freeBank (a : ArrayRun) : Option Bool :=
  if a.bank0.st = .free then some false else if a.bank1.st = .free then some true else none

/-- Discarding a chain (R105, R108): its bank is free at once and its streams are dropped. -/
def ArrayRun.discard (a : ArrayRun) : ArrayRun :=
  match a.binding with
  | .chain _ b =>
    { (a.setBank b Bank.free) with
      binding := .free
      ops := a.ops.filter fun op => match op with
        | .mac b' _ _ _ => b' != b
        | .load _ _ => true }
  | _ => { a with binding := .free }

/-- The group an array is bound to (R105). -/
def ArrayRun.owner (a : ArrayRun) : Option Nat :=
  match a.binding with
  | .free => none
  | .held g => some g
  | .chain g _ => some g

/-- Does a group wait for this array (R105)? -/
def Grp.awaitsArray (g : Grp) (a : Nat) : Bool :=
  match g.sched with
  | .pendingWait (.array as) => as.contains a
  | _ => false

def Run.arrayAwaited (r : Run) (a : Nat) : Bool := r.groups.any fun x => x.2.awaitsArray a

/-- Must group gi wait for array a: bound to another group, or free with earlier groups waiting (R82, R105). -/
def Run.arrayBlocked (r : Run) (a gi : Nat) : Bool :=
  match r.arrays[a]? with
  | none => false
  | some x =>
    match x.owner with
    | some g => g != gi
    | none => r.arrayAwaited a

def Run.setArray (r : Run) (a : Nat) (x : ArrayRun) : Run := { r with arrays := r.arrays.set a x }

/-- The presented arrays an AMASK names, ascending. -/
def amaskArrays (m : BitVec 4) : List Nat := (List.range 4).filter fun i => m.getLsbD i

/-- The first op of a queue that an event may finish: a load with no earlier stream over its buffer, or a stream with no
earlier load of its buffer (R83, R99). Answers it with the queue without it. -/
def takeOp (want : ArrOp → Bool) (blocks : ArrOp → ArrOp → Bool) : List ArrOp → List ArrOp → Option (ArrOp × List ArrOp)
  | _, [] => none
  | seen, op :: rest =>
    if want op && !(seen.any fun e => blocks e op) then some (op, seen.reverse ++ rest)
    else takeOp want blocks (op :: seen) rest

def opIsLoad : ArrOp → Bool
  | .load _ _ => true
  | .mac _ _ _ _ => false

/-- An earlier op e holds back op x: of the same buffer and of the other kind, or the same kind in order. -/
def opBlocks : ArrOp → ArrOp → Bool
  | .mac _ b _ _, .load b' _ => b == b'
  | .load b _, .mac _ b' _ _ => b == b'
  | .load b _, .load b' _ => b == b'
  | .mac k _ _ _, .mac k' _ _ _ => k == k'

/-- The index of a follow group on its core, or of a lead thread. -/
def thrIndex : Thr → Nat
  | .group i => i.val
  | .lead k => k.val

/-- Of the groups a test admits, the one waiting longest, lowest rank first among equals (R29, R105). -/
def earliest (ok : Grp → Bool) : List (Nat × Grp) → Option (Nat × Grp)
  | [] => none
  | x :: t =>
    match earliest ok t with
    | none => if ok x.2 then some x else none
    | some y => if ok x.2 && (x.2.since < y.2.since || (x.2.since = y.2.since && x.2.rank ≤ y.2.rank)) then some x else some y

/-! ### Scratch -/

/-- The scratch offset of the slot a fill occupies (R49). -/
def Ring.slotOff (x : Ring) (f : Nat) : Nat := x.base + (f % x.slots) * x.slotSize

/-- Does a scratch read touch a poisoned ring slot (R50)? -/
def Run.poisoned (r : Run) (off n : Nat) : Bool :=
  r.rings.any fun x => x.fills.any fun f =>
    f.arrived && f.poisoned && x.slotOff f.num < off + n && off < x.slotOff f.num + x.slotSize

end Sys2Proof.Machine
end

