-- ==== Sys2Proof/Machine/ControlOps.lean ====
section
/-! DEFINITION. Divergence, EXIT, barriers and rings (02 R34, R35, R42, R43, R47 to R50, 03 R87, R88). -/

namespace Sys2Proof.Machine

open Sys2Proof

/-- A branch target: the instruction's address plus a signed word offset (R87). -/
def branchTarget (pc : Nat) (off : BitVec 24) : Int := (pc : Int) + off.toInt

/-- A control transfer; a target outside the code region raises ILLEGAL_INSTRUCTION (R59). -/
def Dev.jump (d : Dev) (w : Who) (c : Core) (r : Run) (g : Grp) (target : Int) : Dev :=
  if target ≥ 0 && r.hdr.inCode target.toNat then d.putThr w c r { g with pc := target.toNat }
  else d.instError w c r g errIllegal

/-- JOIN on a stack with a top entry (R34). -/
def Grp.join (g : Grp) : Grp :=
  match g.stack with
  | [] => g
  | e :: rest =>
    if e.pendMask ≠ 0 then
      { g with active := e.pendMask &&& g.live, stack := { e with pendMask := 0 } :: rest, pc := e.pendTarget }
    else { g with active := e.saved &&& g.live, stack := rest, pc := e.reconv }

/-- JOIN repeated while the active mask is empty and entries remain (R88). DEDUCED: one JOIN may bring back a path whose
threads have all exited. The bound is the number of JOINs a stack can take. -/
def joinLoop : Nat → Grp → Grp
  | 0, g => g
  | n + 1, g => if g.active = 0 ∧ g.stack ≠ [] then joinLoop n g.join else g

/-- EXIT of threads (R34, R88): they leave the live mask, the active mask and every mask on the stack; a group without
live threads has exited, and one whose active mask is empty performs JOIN at once. The pc is past the EXIT unless a JOIN
moves it. -/
def Grp.exitThreads (g : Grp) (m : Mask) : Grp :=
  let keep := ~~~m
  let g := { g with
    live := g.live &&& keep
    active := g.active &&& keep
    stack := g.stack.map fun e => { e with saved := e.saved &&& keep, pendMask := e.pendMask &&& keep }
    pc := g.pc + 1 }
  if g.live = 0 then { g with sched := .exited, stack := [] }
  else joinLoop (2 * g.stack.length) g

/-! ### Rings -/

/-- A group's place in a ring at troupe start (R49). -/
def RingUse.start : RingUse := { consume := 0, holds := none }

/-- Has consumer group i released fill f of ring h (R49)? An exited group, and one that holds no thread, has. -/
def Run.released (r : Run) (h f i : Nat) : Bool :=
  match smapGet? r.groups i with
  | none => true
  | some g =>
    let u := smapGet g.rings h RingUse.start
    g.sched = .exited || (f < u.consume && u.holds ≠ some f)

/-- Is the fill at this number FULL: arrived, and every earlier fill arrived (R48)? -/
def Ring.full (x : Ring) (f : Nat) : Bool :=
  x.fills.any (fun y => y.num = f) && x.fills.all (fun y => y.num > f || y.arrived)

/-- Slots whose fills every consumer has released return to EMPTY, in order (R49). -/
def settleFills (released : Nat → Bool) : List Fill → List Fill
  | [] => []
  | f :: rest => if f.arrived && released f.num then settleFills released rest else f :: rest

/-- Ring h with its released slots returned to EMPTY. -/
def Run.settleRing (r : Run) (h : Nat) : Run :=
  match r.rings[h]? with
  | none => r
  | some x =>
    let x' : Ring := { x with fills := settleFills (fun f => (List.range x.consumers).all fun i => r.released h f i) x.fills }
    { r with rings := r.rings.set h x' }

/-- Every ring settled (R49: an exit releases on every ring). -/
def Run.settle (r : Run) : Run := (List.range r.rings.length).foldl Run.settleRing r

/-- The lead thread of ring h has exited and fill f will never be made (R49). -/
def Run.neverFilled (r : Run) (h f : Nat) : Bool :=
  match r.rings[h]? with
  | none => false
  | some x =>
    f ≥ x.next && (match smapGet? r.leads h with
      | none => true
      | some g => g.sched = .exited)

/-! ### Barriers -/

/-- The cores and runs of a troupe (R40). -/
def Dev.troupeRuns (d : Dev) (r : Run) : List (Nat × Run) :=
  r.cores.filterMap fun k =>
    match (d.core k).run with
    | none => none
    | some r' => if r'.q = r.q ∧ r'.slot = r.slot ∧ r'.troupe = r.troupe then some (k, r') else none

/-- The groups of a troupe that have not exited. -/
def Dev.troupeLive (d : Dev) (r : Run) : List Grp :=
  (d.troupeRuns r).flatMap fun x => (x.2.groups.map (·.2)).filter fun g => g.sched ≠ .exited

/-- Every live group of the troupe waits at barrier b (R43: exited groups count as arrived). -/
def allAt (gs : List Grp) (b : Nat) : Bool := gs.all fun g => g.sched = .pendingWait (.barrier b)

/-- Every live group waits at a barrier and no barrier has them all (R43). -/
def barrierSplit (gs : List Grp) : Bool :=
  gs ≠ [] && (gs.all fun g => match g.sched with
    | .pendingWait (.barrier _) => true
    | _ => false)
    && !((List.range 16).any fun b => allAt gs b)

/-- BARRIER_DIVERGENT when R43 calls for it, after an arrival or an exit. -/
def Dev.checkBarriers (d : Dev) (r : Run) : Dev :=
  if barrierSplit (d.troupeLive r) then d.raise r.q r.slot errBarrierDivergent else d

end Sys2Proof.Machine
end

