-- ==== Sys2Proof/Machine/GrantOps.lean ====
section
/-! DEFINITION. Engines and their grants (10 R256, R262, R435, 12 R297 to R300), troupes (02 R25 to R40, R47, R137), the end of a
command's work and its commit (11 R272, R279, 09 R235). -/

namespace Sys2Proof.Machine

open Sys2Proof

/-! ### Engines -/

/-- Commands that hold an engine. -/
def Dev.engineHolders (d : Dev) (e : Engine) : List (Nat × Cmd) :=
  d.allCmds.filter fun x => x.2.engines.any fun r => r.eng = e

def Dev.engineHeld (d : Dev) (e : Engine) : Bool := d.engineHolders e ≠ []

/-- The device tile of an engine, if it lies on one. -/
def Engine.tile? : Engine → Option Nat
  | .core k => some (k / 16)
  | .channel t _ => some t
  | _ => none

/-- Does a command run on engines of a tile? -/
def Cmd.onTiles (c : Cmd) : Bool :=
  match c.body with
  | .kernel _ => true
  | .copy _ _ _ _ _ _ _ => true
  | .fill _ _ _ _ _ _ => true
  | _ => false

/-- The device tile whose copy engine serves a COPY queue (R435). -/
def Dev.copyTile (d : Dev) (q : Nat) : Option Nat :=
  let p := (d.queue q).part
  let ts := d.tiles p
  if ts = [] then none else ts[(q - d.qFirst p) % ts.length]?

/-- Does a tile's site run, with no cut-in of the tile past its grants (R407)? -/
def Dev.tileUp (d : Dev) (t : Nat) : Bool :=
  (match d.siteOf t with
   | some n => d.get fFlrSiteStatState n = siteRunning
   | none => false) && !(d.minuet.tileCutins.any fun x => x.tile = t && x.stopped)

/-- Can a core take a troupe now? -/
def Dev.coreFree (d : Dev) (k : Nat) : Bool :=
  let c := d.core k
  c.takesGroups && c.run.isNone && d.tileUp (k / 16) && !d.engineHeld (.core k)

/-- The sets of engines any one of which a command needs: each is a unit, a channel, a collective engine or a signal unit. -/
def Dev.engineSets (d : Dev) (q : Nat) (c : Cmd) : List (List Engine) :=
  let x := d.queue q
  match c.body with
  | .kernel k =>
    (((d.usableUnits x.part k.unit k.hdr.unit x.prio).getD []).filter (d.unitEligible k.hdr)).map
      fun u => u.map Engine.core
  | .copy _ _ _ _ _ _ _ | .fill _ _ _ _ _ _ =>
    match d.copyTile q with
    | some t => (List.range 4).map fun ch => [.channel t ch]
    | none => []
  | .collective j => [[.collective j.bridge]]
  | .undispatched => []
  | _ => [[.signalUnit q]]

/-- Is an engine free for a command? A collective engine runs up to 8. -/
def Dev.engineFree (d : Dev) : Engine → Bool
  | .core k => d.coreFree k
  | .channel t ch => d.tileUp t && !d.engineHeld (.channel t ch)
  | .collective b => (d.engineHolders (.collective b)).length < 8
  | .signalUnit q => !d.engineHeld (.signalUnit q)

/-- May a READY command enter RUNNING as far as its queue goes (R255, R256)? -/
def Queue.mayRun (x : Queue) (c : Cmd) : Bool :=
  x.st ≠ .destroying && c.st = .ready && c.sent = none
    && (x.cmds.all fun y => (y.slot + 1) % 2 ^ 32 ≠ c.slot || y.st = .running || y.st = .committing)
    && (match c.body with
        | .marker _ _ _ => (x.cmds.takeWhile fun y => y.slot ≠ c.slot) = []
        | _ => true)

/-- The order of READY commands (R262): class, then readiness, then queue ID. -/
def grantBefore (x y : Queue × Nat × Cmd) : Bool :=
  x.1.prio < y.1.prio || (x.1.prio = y.1.prio &&
    (x.2.2.readyAt < y.2.2.readyAt || (x.2.2.readyAt = y.2.2.readyAt && x.2.1 < y.2.1)))

/-- Engines that commands earlier in the order wait for: they are held back (R262). -/
def Dev.heldBack (d : Dev) (q : Nat) (c : Cmd) : List Engine :=
  let me := (d.queue q, q, c)
  (d.allCmds.filter fun (q2, c2) =>
      let x2 := d.queue q2
      x2.part = me.1.part && !(q2 = q && c2.slot = c.slot) && x2.mayRun c2 && grantBefore (x2, q2, c2) me).flatMap
    fun (q2, c2) => (d.engineSets q2 c2).flatten

/-- Has a cut-in of the engine's tile been approved (R407)? -/
def Dev.engineLeaves (d : Dev) (e : Engine) : Bool :=
  match e.tile? with
  | some t => (List.range 32).any fun n => d.get fCutPropValid n = 1 && d.get fCutPropKind n = kindTile
      && d.get fCutPropUnit n = t && d.get fCutPropState n ≠ 0
  | none => false

/-- The sets of free engines a READY command may take now: one that is not restartable, none of a tile whose cut-in is approved. -/
def Dev.grantable (d : Dev) (q : Nat) (c : Cmd) : List (List Engine) :=
  let back := d.heldBack q c
  (d.engineSets q c).filter fun s => s.all fun e =>
    d.engineFree e && !back.contains e && (c.restartable || !d.engineLeaves e)

/-- How many sets it takes: a KERNEL as many as it has troupes, any other command one (R253, R262). -/
def Cmd.wants (c : Cmd) : Nat :=
  match c.body with
  | .kernel k => k.troupes
  | _ => 1

def engineCore : Engine → Option Nat
  | .core k => some k
  | _ => none

/-- The body at its entry into RUNNING: a KERNEL's units; a MARKER samples the cycle counter (R255). -/
def Dev.enterBody (d : Dev) (p : Nat) (sets : List (List Engine)) : Body → Body
  | .kernel k => .kernel { k with units := sets.map fun s => s.filterMap engineCore }
  | .marker va _ _ => .marker va (d.cycleCounter p) va.isNone
  | b => b

/-- ENGINE_GRANT: RUNNING with its engines, its service level fixed (R400). -/
def Dev.grant (q slot : Nat) (d : Dev) : Dev :=
  match d.cmd? q slot with
  | none => d
  | some c =>
    let x := d.queue q
    if !x.mayRun c then d
    else
      let sets := (d.grantable q c).take c.wants
      if sets = [] then d
      else
        let d := d.tick
        d.putCmd q { c with
          st := .running, runningAt := d.clock, walk := d.walkThrough x.part, body := d.enterBody x.part sets c.body,
          engines := sets.flatten.map fun e => { eng := e, order := .none, acked := false } }

/-! ### Pre-emption (R297 to R300) -/

def Dev.killLimit (d : Dev) (p : Nat) : Nat := d.get fPrtSchedKillLimit p

/-- May a RUNNING command be pre-empted (R281, R298, R300)? -/
def Dev.preemptible (d : Dev) (q : Nat) (c : Cmd) : Bool :=
  let k := d.killLimit (d.queue q).part
  c.st = .running && c.sent = none && c.kill = none && c.restartable && k ≠ 0 && c.kills < k
    && (match c.body with
        | .kernel _ => true
        | .copy _ _ _ _ _ _ _ => true
        | .fill _ _ _ _ _ _ => true
        | _ => false)

/-- May class a pre-empt class b in a partition (R297)? -/
def Dev.classPreempts (d : Dev) (p a b : Nat) : Bool :=
  (a = 0 && 0 < b) || (a = 1 && b = 2 && d.get fPrtSchedLcPreempt p = 1)

/-- The order in which victims are picked (R297): lowest class first, then the most recent entry into RUNNING, then the
higher queue ID. -/
def victimBefore (x y : Queue × Nat × Cmd) : Bool :=
  y.1.prio < x.1.prio || (x.1.prio = y.1.prio &&
    (y.2.2.runningAt < x.2.2.runningAt || (x.2.2.runningAt = y.2.2.runningAt && y.2.1 < x.2.1)))

def insertVictim (x : Queue × Nat × Cmd) : List (Queue × Nat × Cmd) → List (Queue × Nat × Cmd)
  | [] => [x]
  | y :: t => if victimBefore x y then x :: y :: t else y :: insertVictim x t

/-- The victims of a READY command in their order. -/
def Dev.victims (d : Dev) (q : Nat) (c : Cmd) : List (Queue × Nat × Cmd) :=
  let x := d.queue q
  let need := (d.engineSets q c).flatten
  let cs := d.allCmds.filter fun (q2, c2) =>
    (d.queue q2).part = x.part && d.classPreempts x.part x.prio (d.queue q2).prio && d.preemptible q2 c2
      && c2.engines.any fun r => need.contains r.eng
  cs.foldl (fun l (q2, c2) => insertVictim (d.queue q2, q2, c2) l) []

/-- Is a kill on its way to the only holder of an engine, or does it commit (R280, R297)? -/
def Dev.engineGoes (d : Dev) (e : Engine) : Bool :=
  (match e with
   | .core k => (d.core k).takesGroups && d.tileUp (k / 16)
   | .channel t _ => d.tileUp t
   | _ => true)
  && d.engineHeld e && (d.engineHolders e).all fun x => x.2.kill ≠ none || x.2.sent ≠ none || x.2.st = .committing

/-- Would a set be wholly free once the victims given, and those on whom a kill is on its way, have gone? -/
def Dev.freeAfter (d : Dev) (vs : List (Queue × Nat × Cmd)) (s : List Engine) : Bool :=
  s.all fun e => d.engineFree e || d.engineGoes e || vs.any fun v => v.2.2.engines.any fun r => r.eng = e

/-- The victims of a list that hold an engine of a set which no kill on its way frees. -/
def Dev.holdersOf (d : Dev) (vs : List (Queue × Nat × Cmd)) (s : List Engine) : List (Queue × Nat × Cmd) :=
  vs.filter fun v => s.any fun e => !d.engineGoes e && v.2.2.engines.any fun r => r.eng = e

/-- The shortest of some lists, the first of equals. -/
def shortest {α : Type} : List (List α) → List α
  | [] => []
  | [l] => l
  | l :: t => if l.length ≤ (shortest t).length then l else shortest t

/-- The victims (R297): candidates are taken in order until some set of engines would be free; of the sets then free, the one with the
fewest holders among them loses its holders. -/
def Dev.pickVictims (d : Dev) (q : Nat) (c : Cmd) (taken : List (Queue × Nat × Cmd)) :
    List (Queue × Nat × Cmd) → List (Queue × Nat × Cmd)
  | [] => []
  | v :: t =>
    let free := (d.engineSets q c).filter (d.freeAfter (taken ++ [v]))
    if free = [] then Dev.pickVictims d q c (taken ++ [v]) t else shortest (free.map (d.holdersOf (taken ++ [v])))

/-- PREEMPTION_KILL for a READY command whose engines are held (R297). -/
def Dev.preempt (q slot : Nat) (d : Dev) : Dev :=
  match d.cmd? q slot with
  | none => d
  | some c =>
    if !(d.queue q).mayRun c || d.grantable q c ≠ [] || (d.engineSets q c).any (d.freeAfter []) then d
    else (d.pickVictims q c [] (d.victims q c)).foldl (fun d v => d.sendKill v.2.1 v.2.2.slot .preempt) d

/-- SLICE_EXPIRY of a best-effort command (R299). -/
def Dev.slice (q slot : Nat) (d : Dev) : Dev :=
  match d.cmd? q slot with
  | none => d
  | some c =>
    let x := d.queue q
    let waits := d.allCmds.any fun (q2, c2) =>
      let x2 := d.queue q2
      x2.part = x.part && x2.prio = 2 && x2.ctx ≠ x.ctx && x2.mayRun c2 && d.grantable q2 c2 = []
        && (d.engineSets q2 c2).flatten.any fun e => c.engines.any fun r => r.eng = e
    if x.prio = 2 && d.get fPrtSchedSlice x.part ≠ 0 && d.preemptible q c && waits then d.sendKill q slot .preempt else d

/-! ### Troupes -/

/-- A follow group at launch (R25, R39, R137): its live threads are those below THREADS; an empty one counts as exited. -/
def Grp.launch (seed seq : W64) (threads g rank pc : Nat) (clock : Nat) : Grp :=
  let live := BitVec.ofNat 64 (2 ^ min 64 (threads - 64 * g) - 1)
  { rank := rank, gidx := g, live := live, active := live, stack := [], pc := pc,
    sched := if live = 0 then .exited else .pendingReady, since := clock, v := [], u := [], p := [],
    key := shuffleKey seed seq (BitVec.ofNat 64 g), draws := 0, fieldWidth := 0, fieldPos := 0, drawBuf := [], todo := none,
    stats := Stats.zero, monitor := [], rings := [], away := [] }

/-- A lead thread (R47, R57): a group whose one thread is thread 0. -/
def Grp.lead (pc : Nat) : Grp :=
  { rank := 0, gidx := 0, live := 1, active := 1, stack := [], pc := pc, sched := .active, since := 0, v := [], u := [],
    p := [], key := 0, draws := 0, fieldWidth := 0, fieldPos := 0, drawBuf := [], todo := none, stats := Stats.zero, monitor := [],
    rings := [], away := [] }

/-- Indices with the members of a list. -/
def indexed {α : Type} (l : List α) : SMap α := (List.range l.length).zip l

/-- Is next-line prefetch enabled in the near cache of a core of the partition (R162)? Logical core 16 i + j is core j of the
partition's i-th tile. -/
def Dev.nearPf (d : Dev) (p core : Nat) : Bool :=
  match (d.tiles p).idxOf? (core / 16) with
  | some i => (d.get fPrtNearPfMaskEnable p ((16 * i + core % 16) / 64)).testBit ((16 * i + core % 16) % 64)
  | none => false

/-- The run of a troupe on one core of its unit: ranks place, place + n, ... (R40). -/
def Run.start (d : Dev) (x : Queue) (q : Nat) (c : Cmd) (k : KernelJob) (unit : List Nat) (place core : Nat) : Run :=
  let n := unit.length
  let h := k.hdr
  let groups := (List.range (h.groups / max 1 n)).map fun i =>
    Grp.launch k.seed k.seq k.threads (k.next * h.groups + (i * n + place)) (i * n + place) h.followEntry i
  { part := x.part, q := q, slot := c.slot, ctx := x.ctx, troupe := k.next, cores := unit, place := place, hdr := h,
    walk := c.walk, prefetch := d.nearPf x.part core, seq := k.seq, args := k.args, groups := indexed groups,
    leads := indexed (h.rings.map fun r => Grp.lead r.leadEntry), rings := h.rings, scratch := [],
    arrays := (d.core core).arrayWidths.map fun _ => ArrayRun.start, mtx := none, clock := groups.length }

/-- The next troupe of a KERNEL starts on a unit (R37, R40, R157): near caches are written back and invalidated at their new
size; a core whose scratch is below SCRATCH_BYTES ends the command with ILLEGAL_INSTRUCTION. -/
def Dev.startTroupe (d : Dev) (q : Nat) (c : Cmd) (k : KernelJob) (unit : List Nat) (flush : Nat → Dev → Dev) : Dev :=
  let x := d.queue q
  let d := unit.foldl (fun d u => flush u d) d
  let runs := (List.range unit.length).zip unit
  let d := runs.foldl (fun d (place, u) =>
    d.setCore u { d.core u with nearUnits := k.hdr.nearCache, near := [], invClean := false, stale := false,
                                run := some (Run.start d x q c k unit place u) }) d
  let small := unit.any fun u => match (d.core u).run with
    | some r => (d.core u).scratchShort r
    | none => false
  let d := d.putCmd q { c with body := .kernel { k with next := k.next + 1 } }
  if small then d.raise q c.slot errIllegal else d

/-- Do all groups and lead threads of a core's run count as done? A lead thread that has not exited ends with the troupe's
last group (log 17). -/
def Run.groupsDone (r : Run) : Bool := r.groups.all fun x => x.2.sched = .exited

/-- A troupe that has ended on a unit: every group on every core of the unit has exited. -/
def Dev.troupeDone (d : Dev) (q slot : Nat) (unit : List Nat) : Bool :=
  unit.all fun u => match (d.core u).run with
    | some r => r.q = q && r.slot = slot && r.groupsDone
    | none => false

/-- The troupes that have ended leave their units free for the next (R55); their near caches keep their lines until they are
written back (R157). -/
def Dev.reapTroupes (d : Dev) (q slot : Nat) : Dev :=
  match d.cmd? q slot with
  | none => d
  | some c =>
    match c.body with
    | .kernel k =>
      let idle := k.units.filter fun u => d.troupeDone q slot u
      let d := idle.flatten.foldl (fun d u => (d.dropCoreStreams q slot u).setCore u { d.core u with run := none }) d
      d.putCmd q { c with body := .kernel { k with ended := k.ended + idle.length } }
    | _ => d

/-! ### Commit (R279) -/

/-- The granule words a command's outputs flip (R235): address of the word, the new granule. -/
def Cmd.flips (c : Cmd) : List (Nat × Shadow) :=
  c.outputs.flatMap fun o => o.shadows.map fun s => (o.table + 8 * ((16 * s.granule - o.rangePage) / 16), s)

/-- The flip: granule words are rewritten, cached translations of the granules invalidated, originals returned (R235). -/
def Dev.flip (d : Dev) (p ctx : Nat) (c : Cmd) : Dev :=
  c.flips.foldl (fun d (at_, s) =>
    ((d.storeWord (d.callerRq p ctx) at_ (s.new / 65536)).invalXlat p ctx (16 * s.granule) 16).reservePush p s.old) d

/-- STREAM_CTR[s] := max(STREAM_CTR[s], seq + 1) (R140). -/
def Dev.advanceStream (d : Dev) (p ctx : Nat) (k : KernelJob) : Dev :=
  let at_ := d.streamAt p ctx k.stream
  d.storeWord (d.callerRq p ctx) at_ (max (d.peekWord at_) ((k.seq.toNat + 1) % 2 ^ 64))

/-- The signals of a commit, SIG_FENCE first (R272). -/
def Dev.commitSignals (d : Dev) (p q : Nat) (c : Cmd) : Dev :=
  let d := match c.body with
    | .signal _ pl v => d.queueSignal p (.absolute pl v q c.slot)
    | _ => d
  match c.fence with
  | some pl => d.queueSignal p (.absolute pl (BitVec.ofNat 64 (c.word 2)) q c.slot)
  | none => d

/-- The arbiter numbers a command: this is the commit point, and step 7 follows (R279). Its engines are free then. -/
def Dev.commit (d : Dev) (q : Nat) (c : Cmd) : Dev :=
  let x := d.queue q
  let p := x.part
  let d := d.set fClrCommitSeqSeq ((d.get fClrCommitSeqSeq p + 1) % 2 ^ 64) p
  let d := d.flip p x.ctx c
  let d := match c.body with
    | .kernel k => d.advanceStream p x.ctx k
    | _ => d
  let d := d.commitSignals p q c
  let d := d.meter x.ctx fun m => { m with commits := m.commits + 1 }
  let d := (c.engines.filterMap fun e => engineCore e.eng).foldl (fun d k => d.endAttempt x.ctx k false) d
  let d := d.setQueue q ((d.queue q).retire c.slot true)
  (d.settleQueue q).releaseOverlaps

/-- COMMIT_REQUEST: denied when a kill of the command has reached the arbiter (R279, R280). -/
def Dev.commitRequest (q slot : Nat) (d : Dev) : Dev :=
  match d.cmd? q slot with
  | none => d
  | some c =>
    if c.st ≠ .committing then d
    else if c.kill ≠ none then d.settleKill q slot
    else d.commit q c

/-! ### The end of the work -/

/-- A command's own work is done. -/
def Cmd.workDone (c : Cmd) : Bool :=
  match c.body with
  | .undispatched => false
  | .kernel k => k.ended = k.troupes
  | .copy _ _ rb rows _ _ moved => moved = rb * rows
  | .fill _ _ rb rows _ moved => moved = rb * rows
  | .collective j => j.done
  | .wait _ _ _ => true
  | .signal _ _ _ => true
  | .rangeSync _ _ _ _ _ done => done
  | .marker _ _ done => done

/-- No access of a command over Reel is unanswered (R337, R338). -/
def Dev.remotesDone (d : Dev) (q slot : Nat) : Bool :=
  d.reel.remotes.all fun r => !(r.q = q && r.slot = slot) || (match r.kind with
    | .fence _ => true
    | _ => false)

/-- WORK_FINISHED: the near caches of the cores used are written back, and the commit request goes to the arbiter, unless a kill has
reached it before (R157, R279, R280). The engines stay the command's until it is numbered or killed (R283). -/
def Dev.finishWork (q slot : Nat) (flush : Nat → Dev → Dev) (d : Dev) : Dev :=
  let d := d.reapTroupes q slot
  match d.cmd? q slot with
  | none => d
  | some c =>
    if c.st ≠ .running || !c.workDone || c.kill ≠ none || !d.remotesDone q slot then d
    else ((c.engines.filterMap fun e => engineCore e.eng).foldl (fun d k => flush k d) d).putCmd q { c with st := .committing }

end Sys2Proof.Machine
end

