-- ==== Sys2Proof/Machine/NearOps.lean ====
section
/-! DEFINITION. Near caches (06 R155 to R161): writing lines back, dropping them, filling and storing. Write-backs take no
token (12 R306). A line is found by its physical line on an access, by its virtual line in a line operation (log 18). -/

namespace Sys2Proof.Machine

open Sys2Proof

/-- The requester of a core's write-backs. -/
def Dev.nearRq (d : Dev) (k : Nat) : Rq :=
  { part := (d.tilePart (k / 16)).getD 48, ctx := none, quad := some (k / 16 / 12), num := k }

/-- Writing a near line's dirty bytes to the point of coherence. -/
def Dev.writeNear (d : Dev) (k : Nat) (x : NearLine) : Dev :=
  if x.dirty = 0 then d else d.storeLine (d.nearRq k) x.line x.dirty x.data

/-- Writing back every dirty line of a core's near cache and dropping every line (R157). -/
def Dev.flushNear (k : Nat) (d : Dev) : Dev :=
  let c := d.core k
  let d := c.near.foldl (fun d x => d.writeNear k x) d
  d.setCore k { d.core k with near := [] }

/-- Writing back every dirty line, which stays valid and becomes clean. -/
def Dev.cleanNear (k : Nat) (d : Dev) : Dev :=
  let c := d.core k
  let d := c.near.foldl (fun d x => d.writeNear k x) d
  d.setCore k { d.core k with near := c.near.map fun x => { x with dirty := 0 } }

/-- The acquire action (R156): clean lines go, and every byte that is not dirty. -/
def Dev.acquireNear (k : Nat) (d : Dev) : Dev :=
  let c := d.core k
  d.setCore k { c with near := (c.near.filter (fun x => x.dirty ≠ 0)).map fun x =>
    { x with valid := x.dirty, poison := x.poison &&& x.dirty } }

/-- Changing a core's near cache. -/
def Dev.setNear (d : Dev) (k : Nat) (l : List NearLine) : Dev := d.setCore k { d.core k with near := l, invClean := false }

/-- Lines a near cache of a core holds: 512 for each 32 KiB. -/
def Core.nearLines (c : Core) : Nat := 512 * c.nearUnits

def Dev.nearLine? (d : Dev) (k n : Nat) : Option NearLine := (d.core k).near.find? fun x => x.line = n

/-- Keeping a line: a line present is replaced by its new contents; a new one joins at the end, and the line that joined
earliest is written back and dropped when there is no room (R155, log 19). -/
def Dev.keepNear (k : Nat) (x : NearLine) (d : Dev) : Dev :=
  let c := d.core k
  if c.near.any (fun y => y.line = x.line) then d.setNear k (c.near.map fun y => if y.line = x.line then x else y)
  else
    match c.near with
    | [] => d.setNear k [x]
    | v :: rest =>
      if c.near.length < c.nearLines then d.setNear k (c.near ++ [x])
      else (d.writeNear k v).setNear k (rest ++ [x])

/-- Bytes [off, off + n) of a line as a mask. -/
def spanMask (off n : Nat) : Mask := BitVec.ofNat 64 ((2 ^ n - 1) * 2 ^ off)

/-- n bytes of a line from an offset, as a number. -/
def lineField (x : Line) (off n : Nat) : Nat := natBitsAt x.toNat (8 * off) (8 * n)

/-- A number's n bytes at an offset of a line. -/
def fieldLine (v off n : Nat) : Line := BitVec.ofNat 512 (v % 2 ^ (8 * n) * 2 ^ (8 * off))

def NearLine.empty (n va : Nat) : NearLine := { line := n, va := va, data := 0, valid := 0, dirty := 0, poison := 0 }

/-- A line after a fill from the point of coherence: the bytes that are not dirty (R155), with the poison mark (R81). -/
def NearLine.filled (x : NearLine) (l : Line) (poison : Bool) : NearLine :=
  { x with data := mergeLine l x.dirty x.data, valid := BitVec.allOnes 64
           poison := if poison then ~~~x.dirty else 0 }

/-- A line after a store of the bytes of a mask (R155). -/
def NearLine.stored (x : NearLine) (m : Mask) (l : Line) : NearLine :=
  { x with data := mergeLine x.data m l, valid := x.valid ||| m, dirty := x.dirty ||| m, poison := x.poison &&& ~~~m }

/-- Dropping a line without writing it back. -/
def Dev.dropNear (k n : Nat) (d : Dev) : Dev :=
  let c := d.core k
  d.setCore k { c with near := c.near.filter (fun x => x.line ≠ n) }

/-- Writing a line back and dropping it. -/
def Dev.evictNear (k n : Nat) (d : Dev) : Dev :=
  match d.nearLine? k n with
  | none => d
  | some x => (d.writeNear k x).dropNear k n

/-- Next-line prefetch into a near cache (R161, R162): the following line of the same page, dropped on poison and where it must
wait. -/
def Dev.nearPrefetch (rq : Rq) (k n va : Nat) (d : Dev) : Dev :=
  let on := match (d.core k).run with
    | some r => r.prefetch
    | none => false
  if !on || (n + 1) % 64 = 0 || (d.nearLine? k (n + 1)).isSome then d
  else match d.pocRead rq (n + 1) with
    | none => d
    | some ((l, bad), d') => if bad then d else d'.keepNear k ((NearLine.empty (n + 1) (va + 1)).filled l false)

/-- A plain load of n bytes through the near cache (R155): their value and whether any is poisoned; none where the fetch must
wait. A core whose near cache was enlarged without an INV.NEAR gets bytes that the spec leaves open (R159, log 7). -/
def Dev.nearLoad (rq : Rq) (k va pa n : Nat) (d : Dev) : Option ((Nat × Bool) × Dev) :=
  let m := spanMask (pa % 64) n
  let x := (d.nearLine? k (pa / 64)).getD (NearLine.empty (pa / 64) (va / 64))
  if x.valid &&& m = m then some ((lineField x.data (pa % 64) n, x.poison &&& m ≠ 0), d.setNear k (d.core k).near)
  else
    let got := if (d.core k).stale then
        let (bs, d) := Dev.drawBytes 64 d
        some ((BitVec.ofNat 512 (leNat bs), false), d)
      else d.pocRead rq (pa / 64)
    match got with
    | none => none
    | some ((l, bad), d) =>
      let y := x.filled l bad
      let d := (d.keepNear k y).nearPrefetch rq k (pa / 64) (va / 64)
      some ((lineField y.data (pa % 64) n, y.poison &&& m ≠ 0), d)

/-- A plain store through the near cache: a line not present is allocated without a fetch (R155). -/
def Dev.nearStore (k va pa : Nat) (m : Mask) (l : Line) (d : Dev) : Dev :=
  d.keepNear k (((d.nearLine? k (pa / 64)).getD (NearLine.empty (pa / 64) (va / 64))).stored m l)

/-- A read at the point of coherence merged with the core's own dirty bytes (R154). -/
def Dev.mergedRead (d : Dev) (k : Nat) (l : Line × Bool) (pa n : Nat) : Nat × Bool :=
  let x := (d.nearLine? k (pa / 64)).getD (NearLine.empty (pa / 64) 0)
  let m := spanMask (pa % 64) n
  (lineField (mergeLine l.1 x.dirty x.data) (pa % 64) n, l.2 && m &&& ~~~x.dirty ≠ 0)

end Sys2Proof.Machine
end

