-- ==== Sys2Proof/Machine/ReelOps.lean ====
section
/-! DEFINITION. Sending over Reel (14 R333 to R339): the route of an access, requests outstanding, and what their loss does. -/

namespace Sys2Proof.Machine

open Sys2Proof

def portUp : Nat := 2

/-- The ports that may carry traffic to a module and are UP, lowest first (R334); none in walk-through (R399). -/
def Dev.routePorts (d : Dev) (m : Nat) : List Nat :=
  if d.get fMntBootStatStage ≠ 5 then [] else
  let e := leNat (d.peek (d.get fRelRouteBaseBase * 4096 + 2 * m) 2).1
  (bitsBelow 16 e).filter fun i => d.get fRelPortStatState i = portUp

/-- The port of an access of queue q to window w of module m: the j-th member, j = (Q xor W) mod |P| (R334). -/
def Dev.routePort (d : Dev) (m q w : Nat) : Option Nat :=
  let ps := d.routePorts m
  if ps = [] then none else ps[(q ^^^ w) % ps.length]?

/-- Kinds of a Reel message. -/
def reelRead : Nat := 0
def reelWrite : Nat := 1
def reelAtomic : Nat := 2
def reelFence : Nat := 3
def reelSegment : Nat := 4
def reelAnswer : Nat := 5
def reelAck : Nat := 6
def reelRefuse : Nat := 7
def reelRetry : Nat := 8

/-- The payload of a fence message (R338). -/
def FenceOp.payload : FenceOp → List Nat
  | .absolute _ v _ _ => [0, v.toNat]
  | .relative _ v q slot => [1, v.toNat, q, slot]
  | .error _ code q slot posted => [2, code, q, slot, if posted then 1 else 0]

/-- The message of a request: its number, window, offset and key, and what it carries. -/
def Remote.message (r : Remote) : Emission := .reel r.win.module_ r.msg ([r.id, r.win.window, r.off, r.win.key] ++ r.payload)

/-- Are two requests of one thread to one window, which are performed in issue order (R337)? -/
def Remote.sameThread (a b : Remote) : Bool :=
  a.who.isSome && a.who = b.who && a.lane = b.lane && a.q = b.q && a.slot = b.slot && a.win.module_ = b.win.module_
    && a.win.window = b.win.window

/-- Sending a request, and keeping it until it is answered. One behind another of its thread to the same window leaves when that has been
answered (DESIGN CHOICE, log 128). -/
def Dev.sendReel (d : Dev) (r : Remote) (kind : Nat) (payload : List Nat) : Dev :=
  let behind := d.reel.remotes.any r.sameThread
  let r := { r with id := d.reel.nextId, flight := if behind then .behind else .sent, msg := kind, payload := payload }
  let d := d.setReel { d.reel with nextId := d.reel.nextId + 1, remotes := d.reel.remotes ++ [r] }
  if r.port.isNone || behind then d else d.emit r.message

/-- A request is on its way again. -/
def Dev.resend (d : Dev) (r : Remote) : Dev :=
  let put (x : Remote) : Remote := if x.id = r.id then { x with flight := .sent } else x
  (d.setReel { d.reel with remotes := d.reel.remotes.map put }).emit r.message

/-- RETRY (R189, R333): the request waits in the replay buffer. -/
def Dev.remoteTurned (d : Dev) (id : Nat) : Dev :=
  let put (x : Remote) : Remote := if x.id = id && x.flight = .sent && x.port.isSome then { x with flight := .turned } else x
  d.setReel { d.reel with remotes := d.reel.remotes.map put }

/-- The requests that were turned away are sent again as time passes (log 1). -/
def Dev.resendTurned (d : Dev) : Dev := (d.reel.remotes.filter fun r => r.flight = .turned).foldl Dev.resend d

/-- A fence signal or error store for another module (R338): without a route it waits to be retried (R339). -/
def Dev.sendFence (d : Dev) (p q slot : Nat) (w : WinRef) (off : Nat) (op : FenceOp) : Dev :=
  d.sendReel { id := 0, part := p, q := q, slot := slot, who := none, win := w, off := off, va := 0,
               port := d.routePort w.module_ q w.window, kind := .fence op, tries := 0, lane := 0, flight := .sent, msg := 0,
               payload := [] } reelFence op.payload

def Dev.remote? (d : Dev) (id : Nat) : Option Remote := d.reel.remotes.find? fun r => r.id = id

/-- Taking an answered request off the list; the one behind it leaves. -/
def Dev.dropRemote (d : Dev) (id : Nat) : Dev :=
  let next := (d.remote? id).bind fun r => d.reel.remotes.find? fun x => x.flight = .behind && r.sameThread x
  let d := d.setReel { d.reel with remotes := d.reel.remotes.filter fun r => r.id ≠ id }
  match next with
  | some x => d.resend x
  | none => d

/-- A signal that reached no fence (R339): discarded, with a provider fault record that names the fence. -/
def Dev.signalLost (d : Dev) (r : Remote) : Dev :=
  (d.dropRemote r.id).log 10 noneByte r.part 0 0 r.off [r.win.module_, r.win.window, r.q]

/-- A port goes DOWN (R335): every command with a request unacknowledged on it ends with DEVICE_LOST; a signal on it is
discarded (R339). -/
def Dev.portDown (d : Dev) (port : Nat) : Dev :=
  let lost := d.reel.remotes.filter fun r => r.port = some port
  let d := d.setReel { d.reel with remotes := d.reel.remotes.filter fun r => r.port ≠ some port }
  lost.foldl (fun d r => match r.kind with
    | .fence _ => d.signalLost r
    | _ => d.raise r.q r.slot errDeviceLost) d

/-- A signal or error store reaches its fence, or leaves for another module (R270, R272, R338); none where it must wait. -/
def Dev.deliverFence (d : Dev) (p : Nat) (op : FenceOp) : Option Dev :=
  let (q, slot) : Nat × Nat := match op with
    | .absolute _ _ q s => (q, s)
    | .relative _ _ q s => (q, s)
    | .error _ _ q s _ => (q, s)
  match op.place with
  | .local_ pa => d.applyFence (d.fenceRq p op) p op pa
  | .remote w off => some (d.sendFence p q slot w off op)

end Sys2Proof.Machine
end

