-- ==== Sys2Proof/Machine/AccessOps.lean ====
section
/-! DEFINITION. Where an access of a command lands (09 R217 to R223, R233 to R236): its translation in a core or a tile, the
shadow granules of its outputs, and accesses that leave over Reel (14 R333 to R337). -/

namespace Sys2Proof.Machine

open Sys2Proof

/-! ### Shadows -/

/-- The output of a command that holds n bytes at a virtual address. -/
def Cmd.outputAt (c : Cmd) (va n : Nat) : Option Output := c.outputs.find? fun o => o.va ≤ va && va + n ≤ o.va + o.len

def Cmd.declares (c : Cmd) (va n : Nat) : Bool := (c.outputAt va n).isSome

/-- Zeroing lines lo up to hi at their homes without fetching them (R160, R234): every copy is gone, and so is any poison. -/
def Dev.zeroLines (d : Dev) (lo hi : Nat) : Dev :=
  let inside (n : Nat) : Bool := lo ≤ n && n < hi
  let d := { d with mem := memClear d.mem (64 * lo) (64 * hi), poison := d.poison.filter fun n => !inside n }
  let d := d.setHbm { d.hbm with bad := d.hbm.bad.filter (fun n => !inside n), weak := d.hbm.weak.filter fun n => !inside n }
  let d := d.setCoh { d.coh with lines := d.coh.lines.filter (fun x => !inside (x.1 / 16))
                                 tags := d.coh.tags.filter (fun x => !inside (x.1 / 16)) }
  d.set fLpmRasStatPoisoned (min 0xFFFF (d.poison.countP fun x => isLp (64 * x)))

/-- Lines n onward, allocated dirty in the shared cache for a partition, as ZLINE.S does (R160, R234). -/
def Dev.allocLines (d : Dev) (p n count : Nat) : Dev :=
  (List.range count).foldl (fun d i => d.shcTouch (d.home (64 * (n + i))) p (n + i) true) d

/-- The granule size of shadows (R234). -/
def granuleBytes : Nat := 65536

/-- An output of a command given one more shadow. -/
def Cmd.addShadow (c : Cmd) (o : Output) (s : Shadow) : Cmd :=
  { c with outputs := c.outputs.map fun x => if x.va = o.va then { x with shadows := x.shadows ++ [s] } else x }

/-- The first write to a granule of a COW or OVERWRITE output (R234): a granule of the commit reserve becomes its shadow,
zeroed in the shared cache for OVERWRITE, to be copied into for COW; none with the reserve empty, which is counted where it ends the command:
one that another kill ends already does not end for it (R295, R296). -/
def Dev.takeShadow (d : Dev) (p q : Nat) (c : Cmd) (o : Output) (va pa : Nat) : Option Shadow × Dev :=
  match d.reserveTake p with
  | (none, d) => (none, if ((c.sent.or c.kill).map KillWhy.isEnd).getD false then d else d.bump fPrtReserveStatExhausted 1 p)
  | (some g, d) =>
    let s : Shadow := { granule := va / granuleBytes, old := pa - pa % granuleBytes, new := g, copying := o.mode = .cow, next := 0 }
    let d := if o.mode = .overwrite then (d.zeroLines (g / 64) (g / 64 + 1024)).allocLines p (g / 64) 1024 else d
    (some s, d.putCmd q (c.addShadow o s))

/-! ### Places -/

/-- Where one access lands. nowhere: where the context that made an undiagnosed error may neither read nor write (R12); a read gives what the
spec leaves open, and a write is lost. -/
inductive Spot where
  | memory (pa : Nat)
  | window (w : WinRef) (off : Nat)
  | nowhere
  deriving DecidableEq, Repr

/-- How placing an access ends: a place; a page to be walked; a shadow copy to wait for; no granule left in the reserve. -/
inductive Placed where
  | at_ (s : Spot)
  | miss (page : Nat)
  | copying (granule : Nat)
  | exhausted
  deriving DecidableEq, Repr

/-- Does a context's mapping reach a granule of its partition's commit reserve, or one that a command of another context holds as a shadow
(R295)? Such an access is confined to the context (R12). -/
def Dev.strays (d : Dev) (p ctx pa : Nat) : Bool :=
  let g := pa - pa % granuleBytes
  ((List.range (d.get fPrtReserveStatFree p)).any fun i => natBitsAt (d.peekWord (d.reserveAt p i)) 0 36 * 65536 = g)
    || d.allCmds.any fun x => (d.queue x.1).ctx ≠ ctx && x.2.outputs.any fun o => o.shadows.any fun s => s.new = g

/-- The place of n bytes at a virtual address that a translation covers, for a command (R234): a written granule of an output
is accessed in its shadow, an untouched one in the original. -/
def Dev.spotOf (d : Dev) (p q slot : Nat) (x : Xent) (va n : Nat) (write : Bool) : Placed × Dev :=
  match x.window with
  | some w => (.at_ (.window w (va - x.rangePage * 4096)), d)
  | none =>
    let pa := x.phys va
    if d.strays p x.ctx pa then (.at_ .nowhere, d)
    else match d.cmd? q slot with
    | none => (.at_ (.memory pa), d)
    | some c =>
      match c.outputAt va n with
      | none => (.at_ (.memory pa), d)
      | some o =>
        if o.mode = .inplace then (.at_ (.memory pa), d)
        else match o.shadows.find? (fun s => s.granule = va / granuleBytes) with
          | some s =>
            if s.copying then (.copying s.granule, d) else (.at_ (.memory (s.new + va % granuleBytes)), d)
          | none =>
            if !write then (.at_ (.memory pa), d)
            else match d.takeShadow p q c o va pa with
              | (none, d) => (.exhausted, d)
              | (some s, d) =>
                if s.copying then (.copying s.granule, d) else (.at_ (.memory (s.new + va % granuleBytes)), d)

/-- Looking a page up for a core (R223): its TLB, then its tile's range cache, whose entry the TLB keeps. -/
def Dev.coreLookup (d : Dev) (k ctx page : Nat) (a : Access) : Option Xent × Dev :=
  match (findXent (d.core k).tlb ctx page).filter (fun x => x.grants a) with
  | some x => (some x, d)
  | none =>
    match d.lookup (k / 16) ctx page a with
    | some x => (some x, d.setCore k { d.core k with tlb := pushXent 64 (d.core k).tlb x })
    | none => (none, d)

/-- A stream outside the cores: the tile whose range cache it uses (48 is the Caller's), and its command. -/
structure Stream where
  tile : Nat
  part : Nat
  ctx : Nat
  q : Nat
  slot : Nat
  deriving DecidableEq, Repr

/-- Placing an access of a stream; a miss begins its walk. -/
def Dev.place (d : Dev) (s : Stream) (va n : Nat) (write : Bool) : Placed × Dev :=
  let a : Access := if write then .write else .read
  match d.lookup s.tile s.ctx (va / 4096) a with
  | some x => d.spotOf s.part s.q s.slot x va n write
  | none =>
    (.miss (va / 4096), d.miss s.tile s.ctx (va / 4096)
      { q := s.q, slot := s.slot, slotRead := false, who := none, access := a, fill := false, va := va })

/-! ### Accesses over Reel -/

/-- Sending an access of a command to a window (R333, R334): its request's number, or DEVICE_LOST with no route. -/
def Dev.sendAccess (d : Dev) (s : Stream) (who : Option Who) (lane : Nat) (w : WinRef) (off va : Nat) (kind : RemoteKind) (msg : Nat)
    (payload : List Nat) : Option Nat × Dev :=
  match d.routePort w.module_ s.q w.window with
  | none => (none, d.raise s.q s.slot errDeviceLost)
  | some port =>
    (some d.reel.nextId,
     d.sendReel { id := 0, part := s.part, q := s.q, slot := s.slot, who := who, win := w, off := off, va := va,
                  port := some port, kind := kind, tries := 0, lane := lane, flight := .sent, msg := 0, payload := [] } msg payload)

/-- The writes and atomics of a thread that have not been acknowledged (R337). -/
def Dev.unacked (d : Dev) (w : Who) : List Nat :=
  (d.reel.remotes.filter fun r => r.who = some w && (match r.kind with
    | .write _ => true
    | .atomic _ _ _ => true
    | _ => false)).map Remote.id

end Sys2Proof.Machine
end

