-- ==== Sys2Proof/Machine/MoveOps.lean ====
section
/-! DEFINITION. The work of a copy channel and of a signal unit (10 R254, R255, 09 R221, R222): chunks of COPY and FILL, the stamp of
a MARKER, and a RANGE.SYNC. -/

namespace Sys2Proof.Machine

open Sys2Proof

/-! ### Running commands -/

/-- A RUNNING command whose engines have no order to stop and which no kill has met. -/
def Dev.runs? (d : Dev) (q slot : Nat) : Option Cmd :=
  (d.cmd? q slot).filter fun c => c.st = .running && c.kill = none && c.sent = none && c.engines.all fun e => e.order = .none

/-- The stream of a command's engine. -/
def Dev.stream (d : Dev) (tile q slot : Nat) : Stream :=
  { tile := tile, part := (d.queue q).part, ctx := (d.queue q).ctx, q := q, slot := slot }

/-- The requests of the channel that a COPY or FILL runs on (R170, R435). -/
def Dev.channelRq (d : Dev) (s : Stream) : Rq :=
  let ch := ((d.cmd? s.q s.slot).bind fun c => c.engines.findSome? fun e => match e.eng with
    | .channel _ ch => some ch
    | _ => none).getD 0
  { part := s.part, ctx := some s.ctx, quad := some (s.tile / 12), num := channelNum s.tile ch }

/-! ### Chunks -/

/-- A set of rows: rb bytes from va + r * stride for r below rows (R254). -/
structure Rows where
  va : Nat
  rb : Nat
  rows : Nat
  stride : Nat
  deriving DecidableEq, Repr

/-- The address of byte i of the rows, counted row by row. -/
def Rows.at_ (x : Rows) (i : Nat) : Nat := x.va + i / x.rb * x.stride + i % x.rb

/-- Bytes from the first to the last of the rows. -/
def Rows.extent (x : Rows) : Nat := (x.rows - 1) * x.stride + x.rb

/-- Is address a one of the rows' bytes? The last row that starts at or below it decides. -/
def Rows.holds (x : Rows) (a : Nat) : Bool :=
  let i := if x.stride = 0 then 0 else min (x.rows - 1) ((a - x.va) / x.stride)
  x.va ≤ a && a < x.va + i * x.stride + x.rb

/-- Do two sets of rows share a byte? -/
def Rows.meets (x y : Rows) : Bool :=
  (List.range x.rows).any fun r => (List.range x.rb).any fun c => y.holds (x.va + r * x.stride + c)

/-- Sending a chunk's bytes to its place. -/
def Dev.putChunk (s : Stream) (rq : Rq) (spot : Spot) (dst : Nat) (bs : List Byte) (d : Dev) : Option (Bool × Dev) :=
  match spot with
  | .memory pa => (d.pocStore rq pa bs).map fun d => (true, d)
  | .window w off =>
    match d.sendAccess s none 0 w off dst (.write false) reelWrite (bs.map BitVec.toNat) with
    | (some _, d) => some (true, d)
    | (none, d) => some (false, d)
  | .nowhere => some (true, d)

/-- One chunk of a COPY: n bytes, within one line at both ends. False where it must wait or the command has failed. Poison ends the
command (R216); with overlap the bytes are what the spec leaves open (R12, log 7). -/
def Dev.copyChunk (s : Stream) (rq : Rq) (overlap : Bool) (src dst n : Nat) (d : Dev) : Bool × Dev :=
  match d.place s dst n true with
  | (.at_ spot, d) =>
    match d.place s src n false with
    | (.at_ (.memory pa), d) =>
      match d.pocRead rq (pa / 64) with
      | none => (false, d)
      | some ((l, bad), d') =>
        if bad then (false, d'.raise s.q s.slot errPoison)
        else
          let (bs, d') := if overlap then Dev.drawBytes n d' else (leBytes n (lineField l (pa % 64) n), d')
          (Dev.putChunk s rq spot dst bs d').getD (false, d)
    | (.at_ (.window w off), d) =>
      match d.sendAccess s none 0 w off src (.move dst n) reelRead [n] with
      | (some _, d) => (true, d)
      | (none, d) => (false, d)
    | (.at_ .nowhere, d) =>
      let (bs, d') := Dev.drawBytes n d
      (Dev.putChunk s rq spot dst bs d').getD (false, d)
    | (_, d) => (false, d)
  | (.exhausted, d) => (false, d.raise s.q s.slot errReserve)
  | (_, d) => (false, d)

/-- PATTERN byte (a mod 8) at each address a (R254). -/
def fillBytes (v : W64) (dst n : Nat) : List Byte := (List.range n).map fun i => BitVec.ofNat 8 (natBitsAt v.toNat (8 * ((dst + i) % 8)) 8)

def Dev.fillChunk (s : Stream) (rq : Rq) (v : W64) (dst n : Nat) (d : Dev) : Bool × Dev :=
  match d.place s dst n true with
  | (.at_ spot, d) => (Dev.putChunk s rq spot dst (fillBytes v dst n) d).getD (false, d)
  | (.exhausted, d) => (false, d.raise s.q s.slot errReserve)
  | (_, d) => (false, d)

/-- Does a source chunk come from a window? Its reads carry 16 bytes at most. -/
def Dev.fromWindow (d : Dev) (s : Stream) (va : Nat) : Bool :=
  match d.lookup s.tile s.ctx (va / 4096) .read with
  | some x => x.window.isSome
  | none => false

/-- Moving as much as can be moved, byte i onward: the bytes moved in the end. -/
def Dev.copySome (s : Stream) (rq : Rq) (overlap : Bool) (src dst : Rows) : Nat → Nat → Dev → Nat × Dev
  | 0, i, d => (i, d)
  | fuel + 1, i, d =>
    if dst.rb * dst.rows ≤ i then (i, d)
    else
      let a := src.at_ i
      let b := dst.at_ i
      let n := min (dst.rb - i % dst.rb) (min (64 - a % 64) (64 - b % 64))
      let n := if d.fromWindow s a then min n 16 else n
      if 2 ^ 57 ≤ a || 2 ^ 57 ≤ b then (i, d.raise s.q s.slot errRangeFault)
      else match d.copyChunk s rq overlap a b n with
        | (true, d) => Dev.copySome s rq overlap src dst fuel (i + n) d
        | (false, d) => (i, d)

def Dev.fillSome (s : Stream) (rq : Rq) (v : W64) (dst : Rows) : Nat → Nat → Dev → Nat × Dev
  | 0, i, d => (i, d)
  | fuel + 1, i, d =>
    if dst.rb * dst.rows ≤ i then (i, d)
    else
      let b := dst.at_ i
      let n := min (dst.rb - i % dst.rb) (64 - b % 64)
      if 2 ^ 57 ≤ b then (i, d.raise s.q s.slot errRangeFault)
      else match d.fillChunk s rq v b n with
        | (true, d) => Dev.fillSome s rq v dst fuel (i + n) d
        | (false, d) => (i, d)

/-- Do all destination bytes lie in the command's OUT (R254)? -/
def Cmd.covers (c : Cmd) (x : Rows) : Bool := c.outputs.any fun o => o.va ≤ x.va && x.va + x.extent ≤ o.va + o.len

/-- The body of a move with its progress. -/
def Body.moved (b : Body) (n : Nat) : Body :=
  match b with
  | .copy s t rb rs ss ds _ => .copy s t rb rs ss ds n
  | .fill v t rb rs ds _ => .fill v t rb rs ds n
  | b => b

/-- Recording the progress of a move. -/
def Dev.putMoved (d : Dev) (q slot n : Nat) : Dev :=
  match d.cmd? q slot with
  | none => d
  | some c => d.putCmd q { c with body := c.body.moved n }

/-- The channel of a COPY or FILL works on (R254, R435). -/
def Dev.moveRun (q slot : Nat) (fill : Bool) (d : Dev) : Dev :=
  match d.runs? q slot, d.copyTile q with
  | some c, some t =>
    let s := d.stream t q slot
    let rq := d.channelRq s
    match c.body with
    | .copy src dst rb rows ss ds moved =>
      let x : Rows := { va := src, rb := rb, rows := rows, stride := ss }
      let y : Rows := { va := dst, rb := rb, rows := rows, stride := ds }
      if fill then d
      else if !c.covers y then d.raise q slot errOutside
      else
        let (n, d) := Dev.copySome s rq (x.meets y) x y (rb * rows - moved) moved d
        d.putMoved q slot n
    | .fill v dst rb rows ds moved =>
      let y : Rows := { va := dst, rb := rb, rows := rows, stride := ds }
      if !fill then d
      else if !c.covers y then d.raise q slot errOutside
      else
        let (n, d) := Dev.fillSome s rq v y (rb * rows - moved) moved d
        d.putMoved q slot n
    | _ => d
  | _, _ => d

/-! ### MARKER -/

/-- The STAMP write of a RUNNING MARKER (R255): at the point of coherence; it stalls on a miss like any write, and leaves over Reel
where STAMP lies in a window. -/
def Dev.markerRun (q slot : Nat) (d : Dev) : Dev :=
  match d.runs? q slot with
  | none => d
  | some c =>
    match c.body with
    | .marker (some va) v false =>
      let s := d.stream callerTile q slot
      let rq := d.callerRq s.part s.ctx
      if 2 ^ 57 ≤ va then d.raise q slot errRangeFault
      else match d.place s va 8 true with
        | (.at_ spot, d) =>
          match Dev.putChunk s rq spot va (leBytes 8 v.toNat) d with
          | some (true, d) => d.putCmd q { c with body := .marker (some va) v true }
          | some (false, d) => d
          | none => d
        | (_, d) => d
    | _ => d

/-! ### RANGE.SYNC (R221, R222, R269) -/

/-- Do n bytes at va meet a span of pages? -/
def meetsSpan (va n page pages : Nat) : Bool := va < (page + pages) * 4096 && page * 4096 < va + n

/-- The fences of a dispatched command by virtual address. -/
def Cmd.fenceVas (c : Cmd) : List Nat :=
  (if c.fence.isSome then [c.fenceVa] else []) ++ (match c.body with
    | .wait va _ _ => [va]
    | .signal va _ _ => [va]
    | _ => [])

/-- Is a RANGE.SYNC of a context refused for its span (R222, R269)? Every fence a command of the context holds is weighed, its own
completion fence among them. -/
def Dev.syncRefused (d : Dev) (ctx page pages : Nat) : Bool :=
  d.allCmds.any fun (q, c) => (d.queue q).ctx = ctx && c.dispatched ≠ 0 &&
    (c.outputs.any (fun o => o.mode ≠ .inplace && meetsSpan o.va o.len page pages)
      || c.fenceVas.any fun va => meetsSpan va 64 page pages)

/-- Are accesses of the context over Reel still unanswered that were translated within the span (R221 step 4)? -/
def Dev.spanAway (d : Dev) (ctx page pages : Nat) : Bool :=
  d.reel.remotes.any fun r => (d.queue r.q).ctx = ctx && meetsSpan r.va 1 page pages && (match r.kind with
    | .fence _ => false
    | _ => true)

/-- Step 6: every pending record of the context whose span the sync overlaps is resolved. -/
def Dev.syncResolve (d : Dev) (p ctx page pages : Nat) : Dev :=
  ((d.part p).pendFaults.filter fun r => r.ctx = ctx && r.span < page + pages && page < r.span + r.spanPages).foldl
    (fun d r => d.resolveKey p ctx r.cause r.span r.spanPages) d

/-- Steps 1 and 2: the new root, and the invalidation. A walk in progress has read nothing yet, so step 3 leaves it as it is. -/
def Dev.syncInval (d : Dev) (p ctx page pages : Nat) (root : Option Nat) : Dev :=
  let at_ := d.ctxAt p ctx + 64
  let d := match root with
    | some r => d.storeWord (d.callerRq p ctx) at_ (natSetBits (d.peekWord at_) 0 40 r)
    | none => d
  d.invalXlat p ctx page pages

/-- Step 4 for the near caches (R221): a store of the context into the span that a near cache still holds is written back. -/
def Dev.syncNear (d : Dev) (ctx page pages : Nat) : Dev :=
  let hit (x : NearLine) : Bool := page ≤ x.va / 4096 && x.va / 4096 < page + pages
  (d.cores.filter fun x => (x.2.run.map Run.ctx) = some ctx).foldl (fun d x =>
    let d := (x.2.near.filter hit).foldl (fun d y => d.writeNear x.1 y) d
    d.setCore x.1 { d.core x.1 with near := (d.core x.1).near.map fun y => if hit y then { y with dirty := 0 } else y }) d

/-- A RUNNING RANGE.SYNC (R221): it is refused with RANGE_FAULT, or does steps 1 to 3 once, then step 4, and when every access of step 4
has completed steps 5 and 6; step 7 is its commit. -/
def Dev.rangeSyncRun (q slot : Nat) (d : Dev) : Dev :=
  match d.runs? q slot with
  | none => d
  | some c =>
    match c.body with
    | .rangeSync seq pg n root begun false =>
      let x := d.queue q
      let page := if n = 0 then 0 else pg
      let pages := if n = 0 then 2 ^ 45 else n
      if !begun && d.syncRefused x.ctx page pages then d.raise q slot errRangeFault
      else
        let d := if begun then d else (d.syncInval x.part x.ctx page pages root).syncNear x.ctx page pages
        if d.spanAway x.ctx page pages then d.putCmd q { c with body := .rangeSync seq pg n root true false }
        else
          let at_ := d.ctxAt x.part x.ctx + 72
          let d := d.storeWord (d.callerRq x.part x.ctx) at_ (max (d.peekWord at_) seq.toNat)
          (d.syncResolve x.part x.ctx page pages).putCmd q { c with body := .rangeSync seq pg n root true true }
    | _ => d

end Sys2Proof.Machine
end

