-- ==== Sys2Proof/Machine/WearOps.lean ====
section
/-! DEFINITION. Spares, proposals and cut-ins (18 R405 to R409), and what an approved cut-in of each kind does: lanes and columns
(02 R32, 04 R116), Chassé wires (15 R352), lasers (15 R357), Reel wavelengths (14 R332), host cores; notices to partitions (17
R395, 09 R228). -/

namespace Sys2Proof.Machine

open Sys2Proof

/-! ### Notices (R228, R395) -/

/-- A record with CAUSE 15: it may take the last free entry; false when the queue holds none. -/
def Dev.noticeFits (d : Dev) (p : Nat) : Bool := d.fqUsed p + 1 ≤ d.fqSize p

/-- Writing a notice's record: words 2 to 6 as given, the rest of words 0 and 1 what the spec leaves open (log 21). -/
def Dev.notice (d : Dev) (p : Nat) (ws : List Nat) : Dev :=
  if !d.noticeFits p then d
  else
    let (a, d) := d.draw
    let (b, d) := d.draw
    let w1 := natSetBits (natSetBits b.toNat 12 4 causeNotice) 20 12 0
    d.fqPush p ([natBitsAt a.toNat 0 57, w1] ++ ws)

/-- A notice of Minuet's own, whose words the spec leaves open. -/
def Dev.ownNotice (d : Dev) (p bit : Nat) : Dev :=
  if d.partState p ≠ partFree && (d.get fMntNegStatEnabled p).testBit bit then
    let (bs, d) := Dev.drawBytes 40 d
    d.notice p ((List.range 5).map fun i => leNat ((bs.drop (8 * i)).take 8))
  else d

def featNotice : Nat := 0
def featCutin : Nat := 1
def featThermal : Nat := 2

/-! ### Cut-ins -/

/-- A bit of a map set or cleared. -/
def Dev.setBit (d : Dev) (f : Fld) (i : Nat) (on : Bool) (a : Nat) : Dev :=
  let v := d.get f a
  if v.testBit i = on then d else d.set f (if on then v + 2 ^ i else v - 2 ^ i) a

/-- The core a LANE or COLUMN unit names: its site's tile and its core of the tile. -/
def Dev.unitCore (d : Dev) (site unit : Nat) : Nat := 16 * d.get fFlrSiteStatLogicalTile site + natBitsAt unit 0 4

def Core.mapArray (c : Core) (a : Nat) (f : ArrayHw → ArrayHw) : Core :=
  { c with arrayHw := (List.range c.arrayHw.length).map fun i =>
      let x := (c.arrayHw[i]?).getD ArrayHw.good
      if i = a then f x else x }

/-- The first lit wavelength of a bank that carries no data: a spare laser. -/
def Dev.spareLaser (d : Dev) (bank : Nat) : Option Nat :=
  (List.range 10).find? fun i => (d.get fFlrLaserStatLit bank).testBit i && !(d.get fFlrLaserStatDataMap bank).testBit i
    && !(d.get fFlrLaserStatWeak bank).testBit i

/-- A laser cut-in (R357): a spare takes the wavelength's place. -/
def Dev.cutinLaser (d : Dev) (bank laser : Nat) : Dev :=
  match d.spareLaser bank with
  | none => d
  | some s =>
    if d.get fFlrLaserStatSpares bank = 0 then d
    else
      let d := (d.setBit fFlrLaserStatDataMap laser false bank).setBit fFlrLaserStatDataMap s true bank
      let d := d.set fFlrLaserStatSpares (d.get fFlrLaserStatSpares bank - 1) bank
      let d := d.setFloor { d.floor with
        laserLost := if d.floor.laserLost.contains (bank, laser) then d.floor.laserLost else d.floor.laserLost ++ [(bank, laser)]
        laserCuts := smapPut d.floor.laserCuts bank (smapGet d.floor.laserCuts bank [] ++ [s]) }
      d.lightSites

/-- A Reel wavelength cut-in (R332): a spare carries data after a retrain of the port. -/
def Dev.cutinReel (d : Dev) (port : Nat) : Dev :=
  let lost := smapGet d.reel.lost port []
  match [8, 9].find? (fun i => !(d.get fRelPortStatWlMap port).testBit i && !lost.contains i) with
  | none => d
  | some i =>
    if d.get fRelPortStatSpares port = 0 then d
    else
      let d := d.setBit fRelPortStatWlMap i true port
      let d := d.set fRelPortStatDataWl (d.get fRelPortStatDataWl port + 1) port
      let d := d.set fRelPortStatSpares (d.get fRelPortStatSpares port - 1) port
      let d := d.bump fRelPortStatRetrains 1 port
      let d := d.setReel { d.reel with wlCuts := smapPut d.reel.wlCuts port (smapGet d.reel.wlCuts port [] ++ [i]) }
      if d.get fRelPortStatDataWl port = 4 then d.set fRelPortStatState portUp port else d

/-- A host core cut-in (R409): the spare takes the failed core's ID, and runs when its partition is ACTIVE. -/
def Dev.cutinHost (d : Dev) (h : Nat) : Dev :=
  if d.get fCutStatHostSpares = 0 then d
  else
    let d := d.set fCutStatHostSpares (d.get fCutStatHostSpares - 1)
    let d := d.setHost { d.host with failed := d.host.failed.filter (· ≠ h) }
    match d.hartPart h with
    | some p => if d.partState p = partActive then d.hartStart p h else d
    | none => d

/-- The effect of an approved cut-in of kinds 0 to 5 (R409), at which the Capability Table changes (R414): a wire takes effect in the retrain
that Minuet requests. -/
def Dev.cutin (d : Dev) (kind site unit : Nat) : Dev :=
  let d := d.recordChange.capChange
  let d := if kind = kindLane then
      let k := d.unitCore site unit
      d.setCore k { d.core k with lanePending := false }
    else if kind = kindColumn then
      let k := d.unitCore site unit
      d.setCore k ((d.core k).mapArray (natBitsAt unit 4 2) fun x => { x with pendingCutin := false })
    else if kind = kindWire then
      let e := natBitsAt unit 0 7
      let ba := unit.testBit 7
      let x := d.edgeDir e ba
      (d.setEdgeDir e ba { x with approved := x.approved ++ [natBitsAt unit 8 11 / 32] }).edgeRetrain e ba
    else if kind = kindLaser then d.cutinLaser (natBitsAt unit 0 2) (natBitsAt unit 2 4)
    else if kind = kindReel then d.cutinReel (natBitsAt unit 0 4)
    else if kind = kindHost then d.cutinHost (natBitsAt unit 0 7)
    else d
  if kind = kindLane || kind = kindColumn then
    match d.tilePart (d.get fFlrSiteStatLogicalTile site) with
    | some p => (d.ownNotice p featCutin).ownNotice p featCutin
    | none => d
  else d



/-! ### Proposals (R405, R406) -/

/-- An entry of CUT_PROPn. -/
def Dev.setProp (d : Dev) (n : Nat) (p : Proposal) : Dev :=
  d.setWord .cutProp n 0
    (1 + p.kind * 2 ^ 3 + p.id % 2 ^ 16 * 2 ^ 6 + p.site * 2 ^ 22 + p.unit * 2 ^ 29 + p.part * 2 ^ 49 + p.reason * 2 ^ 55)

/-- An empty entry reads its reset value. -/
def Dev.clearProp (d : Dev) (n : Nat) : Dev := d.setWord .cutProp n 0 (regReset .cutProp)

def Dev.freeProp (d : Dev) : Option Nat := (List.range 32).find? fun n => d.get fCutPropValid n = 0

/-- PENDING: proposals not yet answered. -/
def Dev.countPending (d : Dev) : Dev :=
  let n := ((List.range 32).filter fun i => d.get fCutPropValid i = 1 && d.get fCutPropState i = 0).length
  d.set fCutStatPending (min 63 (n + d.minuet.proposals.length))

/-- A proposal that waits in Minuet takes an entry that is free. -/
def Dev.fillProps (d : Dev) : Dev :=
  match d.minuet.proposals, d.freeProp with
  | p :: rest, some n => (((d.setMinuet { d.minuet with proposals := rest }).setProp n p).event 3).countPending
  | _, _ => d.countPending

/-- Is a proposal of this kind and unit in an entry or waiting? SITE and UNIT together name the unit: a lane's UNIT alone does not name
its tile. -/
def Dev.proposed (d : Dev) (kind site unit : Nat) : Bool :=
  (List.range 32).any (fun n => d.get fCutPropValid n = 1 && d.get fCutPropKind n = kind && d.get fCutPropSite n = site
      && d.get fCutPropUnit n = unit)
    || d.minuet.proposals.any fun p => p.kind = kind && p.site = site && p.unit = unit

/-- Does a spare remain for a kind (R405)? -/
def Dev.spareLeft (d : Dev) (kind unit : Nat) : Bool :=
  if kind = kindLaser then d.get fFlrLaserStatSpares (natBitsAt unit 0 2) ≠ 0
  else if kind = kindReel then d.get fRelPortStatSpares (natBitsAt unit 0 4) ≠ 0
  else if kind = kindHost then d.get fCutStatHostSpares ≠ 0
  else if kind = kindTile then natBitsAt (d.get fCutStatTileSpares) (2 * (unit / 12)) 2 ≠ 0
  else true

/-- The partition that owns a site's tile, or a host core. -/
def Dev.propPart (d : Dev) (kind site unit : Nat) : Nat :=
  if kind = kindHost then (d.hartPart unit).getD noPart
  else if kind = kindTile then (d.tilePart unit).getD noPart
  else if kind ≤ kindColumn then (d.tilePart (d.get fFlrSiteStatLogicalTile site)).getD noPart
  else noPart

/-- Raising a proposal (R405, R406): not again for a site, unit and reason declined before (DEDUCED, log 130); of a standing kind it is approved at
once; otherwise it takes an entry, or waits for one. -/
def Dev.propose (d : Dev) (kind site unit reason : Nat) : Dev :=
  if d.minuet.declined.contains (kind, site, unit, reason) || d.proposed kind site unit || !d.spareLeft kind unit then d
  else
    let p : Proposal := { id := d.minuet.nextProposal, kind := kind, site := site, unit := unit,
                          part := d.propPart kind site unit, reason := reason }
    let d := d.setMinuet { d.minuet with nextProposal := d.minuet.nextProposal + 1 }
    let d := d.log 8 site noneByte 0 0 0 [kind, unit, reason]
    if kind ≤ kindReel && (d.get fCutStatStanding).testBit kind then (d.event 3).cutin kind site unit
    else (d.setMinuet { d.minuet with proposals := d.minuet.proposals ++ [p] }).fillProps

/-- A tile cut-in proposal for a logical tile at a site. -/
def Dev.proposeTile (d : Dev) (t reason : Nat) : Dev :=
  if t < 48 then d.propose kindTile ((d.siteOf t).getD noSite) t reason else d

/-! ### Unit faults on a core (R32, R116, R369) -/

/-- A core stops issuing; the command with groups on it is handled at the command-retry level. -/
def Dev.coreFault (d : Dev) (k : Nat) : Dev :=
  match (d.core k).run with
  | none => d
  | some r => (d.setCore k { d.core k with stopped := true }).sendKill r.q r.slot .unitFault

/-- A wear monitor's tile proposal for a core below 15 lanes or 3 arrays (R31, R116). -/
def Dev.coreWear (d : Dev) (k : Nat) : Dev :=
  if (d.core k).lanes < 15 || (d.core k).arrayWidths.length < 3 then d.proposeTile (k / 16) 5 else d

/-- A core has lost a lane, a column or an array, where it was x (R414; DEDUCED, log 135): the Capability Table changes if what the core
presents does. -/
def Dev.coreLoss (d : Dev) (k : Nat) (x : Core) : Dev :=
  let y := d.core k
  if y.lanes = x.lanes && y.arrayWidths = x.arrayWidths then d else d.capChange

/-- A declined proposal of kinds 0 to 5 (R406): the spare lane or column counts as failed, which may leave the core below 15 lanes or
3 arrays; the rest stay as they are. -/
def Dev.cutinRefused (d : Dev) (kind site unit : Nat) : Dev :=
  let k := d.unitCore site unit
  if kind = kindLane then
    ((d.setCore k { d.core k with lanePending := false, laneSpareLost := true }).coreLoss k (d.core k)).coreWear k
  else if kind = kindColumn then
    let y := (d.core k).mapArray (natBitsAt unit 4 2) fun x => { x with pendingCutin := false, spareLost := true }
    ((d.setCore k y).coreLoss k (d.core k)).coreWear k
  else d

end Sys2Proof.Machine
end

