-- ==== Sys2Proof/Machine/CallerOps.lean ====
section
/-! DEFINITION. The Caller's registers and its reading of rings (10 R237, R238, R243 to R249, R261, R266, 11 R278, R283). -/

namespace Sys2Proof.Machine

open Sys2Proof

/-! ### CLR_QCTL (R244) -/

/-- The first byte of a queue's descriptor (R243). -/
def Dev.queueDesc (d : Dev) (p q : Nat) : Nat := d.get fClrQtabBase p * 4096 + 64 * (q - d.qFirst p)

def classOf (n : Nat) : QClass := if n = 0 then .compute else if n = 1 then .copy else if n = 2 then .collective else .signal

/-- A context's VALID bit, and whether its line is poisoned (R239). -/
def Dev.ctxValid (d : Dev) (p ctx : Nat) : Bool :=
  let (bs, bad) := d.peek (d.ctxAt p ctx) 16
  !bad && (leNat bs).testBit 96

/-- The queue a descriptor describes (R243), or none where a check fails. Of the doorbell page's fields that R244 does not name, BAD_TAIL and
STOP_SLOT begin clear and FOREIGN is kept (DESIGN CHOICE, log 126). -/
def Dev.queueOf (d : Dev) (p q : Nat) : Option Queue :=
  let (bs, bad) := d.peek (d.queueDesc p q) 64
  let w (i : Nat) : Nat := leNat ((bs.drop (8 * i)).take 8)
  let ctx := natBitsAt (w 0) 0 12
  let log2 := natBitsAt (w 0) 17 5
  let et := natBitsAt (w 1) 0 26
  let wt := natBitsAt (w 1) 32 26
  let cls := classOf (natBitsAt (w 0) 12 2)
  if bad || !d.ctxIn p ctx || !d.ctxValid p ctx || natBitsAt (w 0) 14 2 = 3 || log2 < 4 || 16 < log2
      || natBitsAt (w 0) 24 6 ≠ p || 60000000 < et || 60000000 < wt || (cls = .copy && d.tiles p = []) then none
  else match d.relocate p ctx (w 2) rightRead (128 * 2 ^ log2) 128 with
    | .ok ring =>
      let x : Queue := { d.queue q with
        st := .active, part := p, ctx := ctx, cls := cls, prio := natBitsAt (w 0) 14 2, priv := (w 0).testBit 16,
        log2 := log2, execTimeout := et, waitTimeout := wt, ring := ring, errFence := none, head := 0, tail := 0,
        retired := 0, stopCode := 0, stopSlot := 0, badTail := false, cmds := [], recent := [] }
      if isNone (w 3) then some x
      else match d.relocate p ctx (w 3) rightFence 64 64 with
        | .ok va => some { x with errFence := some va }
        | _ => none
    | _ => none

/-- Does CLR_QCTL work for a partition (R293 step 1, R371 step 1)? -/
def Dev.takesOps (d : Dev) (p : Nat) : Bool := d.partState p = partActive && (d.part p).reinit = none

/-- Does CLR_FENCE_POST work for a partition? Only a re-initialisation refuses it (R278, R371 step 1). -/
def Dev.takesPosts (d : Dev) (p : Nat) : Bool := (d.part p).reinit = none

/-- The context and the lines that a CREATE reads: the descriptor, the context's, and its two handles' (R239, R240, R243). -/
def Dev.createReads (d : Dev) (p q : Nat) : Nat × List Nat :=
  let (bs, _) := d.peek (d.queueDesc p q) 64
  let w (i : Nat) : Nat := leNat ((bs.drop (8 * i)).take 8)
  let ctx := natBitsAt (w 0) 0 12
  let handle (x : Nat) : List Nat := if isNone x then [] else linesOf (d.handleAt p ctx (natBitsAt x 0 32)) 16
  (ctx, (linesOf (d.queueDesc p q) 64 ++ (if !d.ctxIn p ctx then []
    else linesOf (d.ctxAt p ctx) 16 ++ (if d.ctxValid p ctx then handle (w 2) ++ handle (w 3) else []))).eraseDups)

/-- CREATE reads and checks, and makes the queue (R243, R244); while a line or token that it needs is to be waited for, BUSY stays (R306). -/
def Dev.createNow (p q : Nat) (d : Dev) : Dev :=
  let (ctx, lines) := d.createReads p q
  match Dev.pocLines (d.callerRq p ctx) lines d with
  | none => (d.set fClrQctlStatBusy 1 p).setPart p { d.part p with qop := some (.create q) }
  | some (_, d) =>
    match d.queueOf p q with
    | some x => (d.setQueue q x).qctlDone p 0
    | none => d.qctlDone p qctlRefused

/-- CREATE (R244). -/
def Dev.qctlCreate (p q : Nat) (d : Dev) : Dev :=
  if d.get fClrQctlStatBusy p = 1 then d
  else if !d.takesOps p || !d.qIn p q || (d.queue q).st ≠ .free then d.qctlDone p qctlRefused
  else d.createNow p q

/-- A CREATE that waits tries again as time passes (log 1); a partition that is ACTIVE no longer refuses it. -/
def Dev.createAgain (p : Nat) (d : Dev) : Dev :=
  match (d.part p).qop with
  | some (.create q) => if d.takesOps p then d.createNow p q else d.qctlDone p qctlRefused
  | _ => d

/-- An abort that reaches a DESTROYING queue has no effect (R283): a kill it has sent gives way to the destroy's. -/
def Cmd.outlastAbort (c : Cmd) : Cmd := if c.sent = some (.ends errKilledAbort) then { c with sent := none } else c

/-- DESTROY (R266): the queue is DESTROYING and reads no slot; commands not yet RUNNING end; the others' engines get kill orders. -/
def Dev.destroyQueue (d : Dev) (q : Nat) : Dev :=
  let x := d.queue q
  let d := d.setQueue q { x with st := .destroying, cmds := x.cmds.map Cmd.outlastAbort }
  let d := d.endStreams q fun s => s.q = q && s.slotRead
  let d := x.notRunning.foldl (fun d s => d.endOne q s errQueueDestroyed) d
  let d := (d.queue q).cmds.foldl (fun d c => (d.sendKill q c.slot (.ends errQueueDestroyed)).order q c.slot .kill) d
  (d.settleQueue q).releaseOverlaps

def Dev.qctlDestroy (p q : Nat) (d : Dev) : Dev :=
  if d.get fClrQctlStatBusy p = 1 then d
  else if !d.takesOps p || !d.qIn p q || (d.queue q).st = .free || (d.queue q).st = .destroying then d.qctlDone p qctlRefused
  else ((d.set fClrQctlStatBusy 1 p).setPart p { d.part p with qop := some (.destroy q) }).destroyQueue q

/-- Is slot number n before HEAD (R244)? Slot numbers compare modulo 2^32. -/
def Queue.wasRead (x : Queue) (n : Nat) : Bool :=
  let back := (x.head.toNat + 2 ^ 32 - n) % 2 ^ 32
  0 < back && back < 2 ^ 31

/-- ABORT (R283): a command in the queue is sent a kill, whose arrival decides. -/
def Dev.qctlAbort (p q slot : Nat) (d : Dev) : Dev :=
  if d.get fClrQctlStatBusy p = 1 then d
  else
    let x := d.queue q
    if !d.takesOps p || !d.qIn p q || x.st = .free || x.st = .destroying then d.qctlDone p qctlRefused
    else if !x.wasRead slot then d.qctlDone p qctlNotPresent
    else match d.cmd? q slot with
      | none => d.qctlDone p (x.retiredResult slot)
      | some _ =>
        ((d.set fClrQctlStatBusy 1 p).setPart p { d.part p with qop := some (.abort q slot false) }).sendKill q slot (.ends errKilledAbort)

/-- A write of CLR_QCTL (R244, R434): a reserved OP is answered REFUSED. -/
def Dev.writeQctl (p v : Nat) (d : Dev) : Dev :=
  let q := natBitsAt v 0 14
  let op := natBitsAt v 16 2
  if op = 1 then d.qctlCreate p q
  else if op = 2 then d.qctlDestroy p q
  else if op = 3 then d.qctlAbort p q (natBitsAt v 32 32)
  else if d.get fClrQctlStatBusy p = 1 then d
  else d.qctlDone p qctlRefused

/-! ### Doorbells (R238, R245 to R247, R261) -/

def fzctxValid : Nat := 63

/-- The partition and context tags a doorbell write carries (R238, R312, R313, R322). -/
def Dev.tagsOf (d : Dev) : Source → Option (Nat × Nat)
  | .companion (some (p, c)) => some (p.val, c.toNat)
  | .companion none => none
  | .minuet => none
  | .hart h =>
    let f := (smapGet d.host.fzctx h.val 0).toNat
    if f.testBit fzctxValid then (d.hartPart h.val).map fun p => (p, natBitsAt f 0 12) else none

/-- Does an access reach the module: a hart in reset makes none (R311), and the companion's cross the link while it is UP (R322)? -/
def Dev.arrives (d : Dev) : Source → Bool
  | .hart h => d.host.running.contains h.val
  | .companion _ => d.get fUlkStatState = ulkUp
  | .minuet => true

/-- A doorbell write (R238, R245): a FREE queue has no tags to hold it against, and ignores it; one whose tags are not the queue's is
counted in FOREIGN; a DESTROYING queue ignores the others, and so does one whose partition is not ACTIVE. -/
def Dev.doorbell (d : Dev) (src : Source) (q : Nat) (f : Queue → Queue) : Dev :=
  let x := d.queue q
  if x.st = .free || !d.arrives src then d
  else if d.tagsOf src ≠ some (x.part, x.ctx) then
    d.setQueue q { x with foreign := BitVec.ofNat 32 (min (2 ^ 32 - 1) (x.foreign.toNat + 1)) }
  else if x.st = .destroying || d.partState x.part ≠ partActive then d
  else d.setQueue q (f x)

/-- A TAIL write (R247), as distances from HEAD modulo 2^32. -/
def Queue.writeTail (t : W32) (x : Queue) : Queue :=
  let rel := (t - x.head).toNat
  if 2 ^ x.log2 < rel || (x.st = .active && rel < (x.tail - x.head).toNat) then { x with badTail := true } else { x with tail := t }

/-- RESUME (R246, R261). -/
def Queue.doResume (x : Queue) : Queue := if x.st = .stopped then { x with st := .active, stopCode := 0 } else x

/-- Clearing BAD_TAIL by writing 1 (R246). -/
def Queue.clearBad (x : Queue) : Queue := { x with badTail := false }

/-- What a doorbell page reads (R246). -/
def Queue.read (x : Queue) (off : Nat) : Nat :=
  let st : Nat := match x.st with
    | .free => 0
    | .active => 1
    | .stopped => 2
    | .destroying => 3
  if off = 0 then x.tail.toNat
  else if off = 8 then x.head.toNat + x.retired.toNat * 2 ^ 32
  else if off = 16 then
    st + (if x.badTail then 4 else 0) + (if x.st = .active then 0 else x.stopCode * 2 ^ 16) + x.foreign.toNat * 2 ^ 32
  else if off = 24 then x.stopSlot.toNat * 2 ^ 32
  else 0

/-- A write at an offset of a doorbell page. -/
def Dev.writeDoorbell (d : Dev) (src : Source) (q off v : Nat) : Dev :=
  if off = 0 then d.doorbell src q (Queue.writeTail (BitVec.ofNat 32 v))
  else if off = 16 then d.doorbell src q fun x => if v.testBit 2 then x.clearBad else x
  else if off = 24 then d.doorbell src q fun x => if v.testBit 0 then x.doResume else x
  else d

/-! ### Reading a slot (R249) -/

/-- The ring cannot be read: the queue stops with RANGE_FAULT at its HEAD, which ERR_FENCE receives. -/
def Dev.ringFault (d : Dev) (q : Nat) : Dev :=
  let x := d.queue q
  if x.st ≠ .active then d
  else
    let slot := x.head.toNat
    let d := match x.errFence.bind fun va => d.fenceOf x.part x.ctx va with
      | some (.local_ pa) => d.queueError x.part (.error (.local_ pa) errRangeFault q slot false)
      | _ => d
    let d := d.stopQueue q slot errRangeFault
    let other (w : Walk) : Walk := { w with streams := w.streams.filter (fun s => !(s.q = q && s.slotRead)) }
    { d with walks := (d.walks.map other).filter (fun w => w.streams ≠ []) }

/-- A slot's fresh copy. -/
def Cmd.held (slot : Nat) (words : List W64) : Cmd :=
  { slot := slot, words := words, st := .held, body := .undispatched, fenceVa := 0, fence := none, outputs := [], engines := [],
    dispatched := 0, readyAt := 0, runningAt := 0, kills := 0, unitFaults := 0, seq := none, kill := none, watch := false, walk := false,
    sent := none }

/-- SLOT_READ: the slot at HEAD, when one is announced and fewer than 16 lie between RETIRED and HEAD. The words from a
poisoned line on are not taken (R216). -/
def Dev.readSlot (q : Nat) (d : Dev) : Dev :=
  let x := d.queue q
  if x.st ≠ .active || x.head = x.tail || 16 ≤ (x.head - x.retired).toNat || d.partState x.part ≠ partActive then d
  else
    let va := x.ring + 128 * (x.head.toNat % 2 ^ x.log2)
    if 2 ^ 57 ≤ va then d.ringFault q
    else match d.lookup callerTile x.ctx (va / 4096) .read with
      | none => d.miss callerTile x.ctx (va / 4096)
          { q := q, slot := x.head.toNat, slotRead := true, who := none, access := .read, fill := false, va := va }
      | some t =>
        if t.window.isSome then d.ringFault q
        else match Dev.pocLines (d.callerRq x.part x.ctx) (linesOf (t.phys va) 128) d with
          | none => d
          | some (ls, d) =>
            let good := ls.takeWhile fun l => !l.2
            let ws := (wordsOf (good.flatMap fun l => lineBytes l.1) (8 * good.length)).map (BitVec.ofNat 64)
            let x := d.queue q
            d.setQueue q { x with head := x.head + 1, cmds := x.cmds ++ [Cmd.held x.head.toNat ws] }

/-! ### CLR_FENCE_POST (R278) -/

/-- A post ends (R278). -/
def Dev.postDone (d : Dev) (p result : Nat) : Dev := (d.set fClrFencePostStatBusy 0 p).set fClrFencePostStatResult result p

/-- A write of CLR_FENCE_POST (R278): the post is stored, or waits its turn at the fence with BUSY 1. -/
def Dev.fencePost (p ctx code : Nat) (d : Dev) : Dev :=
  if d.get fClrFencePostStatBusy p = 1 then d
  else if !d.takesPosts p || !(code = errProducerLost || code = errPartitionReset) || !d.ctxIn p ctx then d.postDone p 1
  else match d.fenceOf p ctx (d.get fClrFencePostVaVa p * 64) with
    | none => d.postDone p 1
    | some pl =>
      match d.deliverFence p (.error pl code 0 0 true) with
      | some d => d.postDone p 0
      | none => (d.queueError p (.error pl code 0 0 true)).set fClrFencePostStatBusy 1 p

/-! ### CLR_Q_RANGE and CLR_CTX_RANGE (R237) -/

/-- Do two blocks overlap? -/
def blocksMeet (f1 n1 f2 n2 : Nat) : Bool := 0 < n1 && 0 < n2 && f1 < f2 + n2 && f2 < f1 + n1

/-- Does a block meet that of another partition that is not FREE? -/
def Dev.blockTaken (d : Dev) (p : Nat) (contexts : Bool) (first count : Nat) : Bool :=
  (List.range 48).any fun o => o ≠ p && d.partState o ≠ partFree &&
    (if contexts then blocksMeet first count (d.ctxFirst o) (d.ctxCount o)
     else blocksMeet first count (d.qFirst o) (d.get fClrQRangeCount o))

/-- A write of CLR_Q_RANGE or CLR_CTX_RANGE: RWL, and unchanged where it would overlap. -/
def Dev.writeBlock (p : Nat) (contexts : Bool) (v : Nat) (d : Dev) : Dev :=
  let r := if contexts then Reg.clrCtxRange else Reg.clrQRange
  let first := if contexts then natBitsAt v 0 12 else natBitsAt v 0 14
  let count := if contexts then natBitsAt v 12 13 else natBitsAt v 14 15
  if d.partState p ≠ partFree || d.blockTaken p contexts first count then d
  else d.setWord r p 0 (regWrite r false (d.word r p 0) v)

end Sys2Proof.Machine
end

