-- ==== Sys2Proof/Machine/PowerOps.lean ====
section
/-! DEFINITION. Clamps, brake and emergencies (17 R383 to R387, 20 R422, R429, R430), the state of a firmware activation (R393,
R394) and the power-cycle request (16 R376). -/

namespace Sys2Proof.Machine

open Sys2Proof

/-! ### Sites -/

def allSites : List Nat := List.range 69

/-- The tile sites that run (R347). -/
def Dev.runningTiles (d : Dev) : List Nat := (List.range 56).filter fun n => d.get fFlrSiteStatState n = siteRunning

/-- The neighbouring tile sites of a stack (R349). -/
def stackTiles (s : Nat) : List Nat :=
  let q := 14 * (s / 6)
  let k := s % 6
  if k = 0 then [q, q + 1, q + 2] else if k = 1 then [q + 2, q + 3, q + 4] else if k = 2 then [q + 4, q + 5, q + 6]
  else if k = 3 then [q + 7, q + 8, q + 9] else if k = 4 then [q + 9, q + 10, q + 11] else [q + 11, q + 12, q + 13]

/-- The stacks that a tile site neighbours. -/
def siteStacks (n : Nat) : List Nat := (List.range 24).filter fun s => (stackTiles s).contains n

/-! ### The CORE divider (R360, R383) -/

/-- One step down in clock: 8, 9, 10, 12, 16. -/
def divDown (v : Nat) : Nat := if v < 8 then 8 else if v = 8 then 9 else if v = 9 then 10 else if v = 10 then 12 else 16

/-- One step up in clock. -/
def divUp (v : Nat) : Nat := if 16 ≤ v then 12 else if 12 ≤ v then 10 else if v = 10 then 9 else 8

/-- THROTTLED of each partition (R208, R209): a tile of it runs below its service-level clock because of a stack. -/
def Dev.throttledBits (d : Dev) : Dev :=
  (List.range 48).foldl (fun d p =>
    let level := if d.get fPrtServiceLevel p = 1 then 8 else 16
    let slow := (d.tiles p).any fun t => match d.siteOf t with
      | some n => level < d.get fFlrSiteStatCoreDiv n && (siteStacks n).any fun s => d.get fHbmStackStatThrottle s = 1
      | none => false
    let v := if d.partState p ≠ partFree && slow then 1 else 0
    if d.get fPrtHbmEnvThrottled p = v then d else d.set fPrtHbmEnvThrottled v p) d

/-- Is a tile site held at its safe operating point (R209, R385, R386, R422)? -/
def Dev.siteHeld (d : Dev) (n : Nat) : Bool :=
  d.get fFlrSiteStatClamp n = 1 || d.get fMntPwrStatBrake = 1 || d.minuet.excursion
    || (siteStacks n).any fun s => d.get fHbmStackStatClamp s = 1

/-- The safe operating point of a tile is CORE / 16 (R385). Those of the other dies change timing only (DESIGN CHOICE, log 132). -/
def Dev.slowest (d : Dev) (n : Nat) : Dev := if n < 56 then d.set fFlrSiteStatCoreDiv 16 n else d

/-! ### Firmware state (R393, R394) -/

def kindHandoff : Nat := 2

def fwIdle : Nat := 0
def fwVerifying : Nat := 1
def fwBooting : Nat := 2
def fwHandingOver : Nat := 3
def fwCommitted : Nat := 4
def fwDeferred : Nat := 5
def fwRefusedSignature : Nat := 6
def fwRefusedVersion : Nat := 7
def fwNoSpare : Nat := 8
def fwHandoffFailed : Nat := 9

/-- MNT_FW_STAT changes: companion event 2 (R390). -/
def Dev.setFw (d : Dev) (st step : Nat) : Dev := ((d.set fMntFwStatState st).set fMntFwStatStep step).event 2

/-- The slot of a handoff record goes back to the companion with the length of a record, if its flag stands as it was found (R326). -/
def Dev.handoffBack (d : Dev) (slot : Option Nat) (len : Nat) : Dev :=
  match slot with
  | none => d
  | some n => if d.xwKept n then d.xwRelease n kindHandoff len else d.xwForget [n]

/-- A handover that ends before its commit: every responsibility moved returns, the new image halts (R394); its record is void. -/
def Dev.endHandover (d : Dev) (st : Nat) : Dev :=
  match d.minuet.handover with
  | none => d
  | some h =>
    let d := d.handoffBack h.slot 0
    ((d.setMinuet { d.minuet with handover := none }).setFw st 0).log 9 noneByte noneByte 0 0 0 [st]

/-! ### Emergencies (R387) -/

/-- Kinds of an answer on the sideband: an in-band interrupt, a private read, an address assigned, a data register. -/
def sbIbi : Nat := 0
def sbRead : Nat := 1
def sbAddr : Nat := 2
def sbTdo : Nat := 3

/-- THERM_ALERT_N (R387, R429): asserted while any clamp holds, and at level 4. -/
def Dev.alert (d : Dev) : Dev :=
  let low := allSites.any (fun n => d.get fFlrSiteStatClamp n = 1)
    || (List.range 24).any (fun s => d.get fHbmStackStatClamp s = 1) || d.minuet.powerCycle ≠ none
  if d.floor.pins.thermAlertN = !low then d
  else (d.setFloor { d.floor with pins := { d.floor.pins with thermAlertN := !low } }).emit (.pin "THERM_ALERT_N" (!low))

/-- A thermal notice to every partition whose session enables it (R395). -/
def Dev.thermalNotices (d : Dev) : Dev := (List.range 48).foldl (fun d p => d.ownNotice p featThermal) d

/-- Does an emergency hold? -/
def Dev.emergencyNow (d : Dev) : Bool :=
  d.get fMntPwrStatBrake = 1 || d.minuet.excursion || allSites.any fun n => d.get fFlrSiteStatClamp n = 1

/-- An emergency begins or ends: EMERGENCY, EMERGENCIES, CLEAR_100MS, companion event 4, the in-band interrupt, notices; one that
begins ends a handover (R394). -/
def Dev.emergency (d : Dev) : Dev :=
  let d := d.alert
  let on := d.emergencyNow
  if (d.get fMntPwrStatEmergency = 1) = on then d
  else
    let d := (d.set fMntPwrStatEmergency (if on then 1 else 0)).setMinuet { d.minuet with clearMs := 0 }
    let d := d.set fMntPwrStatClear100ms 0
    let d := if on then (d.bump fMntPwrStatEmergencies 1).endHandover fwDeferred else d
    ((d.event 4).emit (.sideband sbIbi (if on then 2 else 3))).thermalNotices

/-- One more millisecond without an emergency (R387). -/
def Dev.clearTick (d : Dev) : Dev :=
  if d.get fMntPwrStatEmergency = 1 then d
  else
    let n := min 100 (d.minuet.clearMs + 1)
    let d := d.setMinuet { d.minuet with clearMs := n }
    if n = 100 then d.set fMntPwrStatClear100ms 1 else d

/-- A die's clamp takes hold, or releases unless another reason holds it (R385). -/
def Dev.clampSite (d : Dev) (n : Nat) : Dev := (d.set fFlrSiteStatClamp 1 n).slowest n

def Dev.unclampSite (d : Dev) (n : Nat) : Dev :=
  if (d.site n).hot || d.get fMntPwrStatLoopsHeld = 1 then d else d.set fFlrSiteStatClamp 0 n

/-- Every die at its safe operating point (R386). -/
def Dev.allSlow (d : Dev) : Dev := d.runningTiles.foldl Dev.slowest d

/-- The temperature clamp of a die (R385): at 103 degrees it holds, below 100 it releases. -/
def Dev.hotClamp (d : Dev) (n temp : Nat) : Dev :=
  let d := d.set fFlrSiteStatTemp temp n
  if 103 ≤ temp then ((d.setSite n { d.site n with hot := true }).clampSite n).emergency
  else if temp < 100 && (d.site n).hot then ((d.setSite n { d.site n with hot := false }).unclampSite n).emergency
  else d

/-! ### Level 4 (R376) -/

/-- The power-cycle request: THERM_ALERT_N, companion event 5, the in-band interrupt, and nothing more. -/
def Dev.requestPower (d : Dev) (c : PowerCause) : Dev :=
  if d.minuet.powerCycle ≠ none then d
  else
    let d := (d.setMinuet { d.minuet with powerCycle := some c, handover := none }).alert
    { (d.event 5).emit (.sideband sbIbi 1) with halted := true }

end Sys2Proof.Machine
end

