-- ==== Sys2Proof/Machine/ResetOps.lean ====
section
/-! DEFINITION. The resets of the device (15 R362, 16 R375, R376, 18 R397): what each clears, what the configuration record and the
silicon keep (18 R404). -/

namespace Sys2Proof.Machine

open Sys2Proof

def kindPower : Nat := 0
def kindModule : Nat := 1
def kindWarm : Nat := 2

/-! ### What survives -/

/-- Memory after a reset is unspecified (R375, R428): whatever the free cells say, in canonical form. -/
def freeMem (n : Nat) : Mem :=
  (Config.freeCells n).foldl (fun m c => if isMemory c.1 then memPut m c.1 c.2 else m) []

def freePoison (n : Nat) : List Nat := ((Config.freeLines n).filter fun x => isMemory (64 * x)).foldl insertNat []

/-- A core keeps its silicon: failed lanes, columns and rows, and the cut-ins of the record. -/
def Core.hardware (c : Core) : Core :=
  { Core.built with
    lanesFailed := c.lanesFailed, laneSpareLost := c.laneSpareLost, lanePending := c.lanePending, arrayHw := c.arrayHw }

/-- A Chassé direction keeps its wire map. -/
def EdgeDir.hardware (x : EdgeDir) : EdgeDir := { x with expect := 0, replays := 0, training := false }

/-- FLR_SITE_STAT after a reset (R11): role and logical tile from the record, every other field 0. -/
def Dev.siteKept (d : Dev) (n : Nat) : Nat := d.get fFlrSiteStatRole n + d.get fFlrSiteStatLogicalTile n * 32

/-- Has bring-up taken the configuration record in (R397)? -/
def Dev.recordIn (d : Dev) : Bool := [3, 4, 5, 8].contains (d.get fMntBootStatStage)

/-- The sites that stay WITHDRAWN or FAILED over a reset, with their STATE. -/
def Dev.unfitSites (d : Dev) : SMap Nat :=
  if !d.recordIn then d.floor.unfit
  else (List.range 69).foldl (fun m n =>
    let st := if d.get fFlrSiteStatState n = siteStandalone then (d.site n).before else d.get fFlrSiteStatState n
    if st = siteWithdrawn || st = siteFailed then smapPut m n st else m) []

/-- The registers whose reset value comes from the record (R349, R406), and the image that boots. -/
def Dev.keptRegs (d : Dev) (running : Nat) : SMap W64 :=
  let put (m : SMap W64) (a v : Nat) : SMap W64 := smapPut m a (BitVec.ofNat 64 v)
  let rs := (List.range 69).foldl (fun m n => put m (regKey .flrSiteStat n 0) (d.siteKept n)) []
  let rs := put rs (regKey .tmpBeats 12 0) hostBeatsReset
  let rs := put rs (regKey .cutStat 0 0) (natSetBits (d.word .cutStat 0 0) 17 6 0)
  put rs (regKey .mntFwStat 0 0) (running * 256)

/-- REMAP_USED and PPR_PENDING of every stack, from the remap tables. -/
def Dev.showRemaps (d : Dev) : Dev :=
  (List.range 24).foldl (fun d s =>
    let rs := d.hbm.remaps.filter fun r => r.stack = s
    (d.set fHbmStackStatRemapUsed rs.length s).set fHbmStackStatPprPending (rs.countP fun r => r.ppr) s) d

/-- PPR_AT_RESET reads 1 again, so every remap waits for the next repair. -/
def waitsRepair (r : Remap) : Remap := { r with ppr := true }

/-- A device after a reset, before its release: its record and silicon, every partition FREE, homes in NACK mode. -/
def Dev.cleared (d : Dev) (running : Nat) (remaps : List Remap) : Dev :=
  { Dev.reset with
    mem := freeMem d.fresh
    poison := freePoison d.fresh
    regs := d.keptRegs running
    cores := smapMap (fun _ c => c.hardware) d.cores
    hbm := { Dev.reset.hbm with remaps := remaps.map waitsRepair, lpWithdrawn := d.hbm.lpWithdrawn }
    host := { Dev.reset.host with failed := d.host.failed, fwRunning := d.host.fwRunning, fwStaged := d.host.fwStaged }
    reel := { Dev.reset.reel with lost := d.reel.lost, wlCuts := d.reel.wlCuts }
    floor := { Dev.reset.floor with
      edges := smapMap (fun _ x => x.hardware) d.floor.edges, laserLost := d.floor.laserLost, laserCuts := d.floor.laserCuts,
      refLost := d.floor.refLost, retired := d.floor.retired, unfit := d.unfitSites,
      pins := { d.floor.pins with thermAlertN := true, boundary := 0, ir := 1, dieIr := 1, i3cAddr := none } }
    minuet := { Dev.reset.minuet with
      minSecurity := d.minuet.minSecurity, declined := d.minuet.declined, staged := d.minuet.staged, lostCores := d.minuet.lostCores }
    out := d.out
    variantB := d.variantB
    fresh := d.fresh + 1
    clock := d.clock }

/-- What bring-up shows of the record and the flash (R397): sites WITHDRAWN or FAILED, remaps, the staged image. -/
def Dev.showRecord (d : Dev) : Dev :=
  let d := d.floor.unfit.foldl (fun d x => d.set fFlrSiteStatState x.2 x.1) d.showRemaps
  match d.minuet.staged with
  | some i => d.set fMntFwStatStaged (i.version / 256)
  | none => d

/-- MNT_RESET_CAUSE. -/
def Dev.resetCause (d : Dev) (kind cause site agents warms : Nat) : Dev :=
  d.setWord .mntResetCause 0 0 (kind + cause * 4 + site * 64 + agents % 2 ^ 14 * 2 ^ 14 + warms * 2 ^ 28)

/-- The version of the running image. -/
def Dev.running (d : Dev) : Nat := d.get fMntFwStatRunning

/-! ### POWER and MODULE -/

/-- A POWER or MODULE reset: module memory is lost (R428). -/
def Dev.hardReset (d : Dev) (kind : Nat) : Dev :=
  ((d.cleared d.running d.hbm.remaps).resetCause kind 0 noSite 0 0).alert

/-! ### WARM (R375, R205) -/

/-- The remaps that the warm reset repairs: those marked for it, in order, as many as the stack's resources reach (which the
spec leaves to the stack). -/
def repaired (budget : Nat) (rs : List Remap) : List Remap :=
  let (marked, rest) := (rs.filter fun r => r.ppr, rs.filter fun r => !r.ppr)
  marked.drop (budget % (marked.length + 1)) ++ rest

/-- The units that belonged to a carve-out, or were still being scrubbed, with the partition. -/
def Dev.formerUnits (d : Dev) : List (Nat × Nat) :=
  ((List.range 48).flatMap fun p =>
    if d.partState p = partFree then []
    else (d.hbmUnits p).map (p, ·) ++ (d.lpUnits p).map fun u => (p, 2048 + u))
    ++ (d.tempo.scrubs.map fun x => (x.part, x.unit)).eraseDups

/-- The Minuet image that boots: the staged one when its activation found no spare core (R393), which then is no longer staged. -/
def Dev.bootImage (d : Dev) : Nat × Dev :=
  match d.minuet.staged with
  | some i =>
    if d.get fMntFwStatState = fwNoSpare then
      (i.version, (d.setMinuet { d.minuet with staged := none, minSecurity := max d.minuet.minSecurity i.security }).recordChange)
    else (d.running, d)
  | none => (d.running, d)

/-- What no WARM reset clears: the identity registers, which it does not derive again (R396), and the count of watchdog expiries since
the last POWER or MODULE reset (R382). -/
def Dev.lastingWords (d : Dev) : List (Nat × W64) :=
  [(regKey .mntIdStat 0 0, BitVec.ofNat 64 (d.word .mntIdStat 0 0)),
   (regKey .mntCoreStat 0 0, BitVec.ofNat 64 (regReset .mntCoreStat + d.get fMntCoreStatExpiries * 2 ^ 12))]
    ++ (List.range 12).map fun i => (regKey .mntIdPubkey i 0, BitVec.ofNat 64 (d.word .mntIdPubkey i 0))

/-- A device warm reset: the cause is the first record of the new log. -/
def Dev.warmReset (d : Dev) (cause site agents : Nat) : Dev :=
  let units := d.formerUnits.eraseDups
  let warms := min 0xFFFF (d.get fMntResetCauseWarmCount + 1)
  let (b, d) := d.draw
  let (running, d) := d.bootImage
  let lasting := d.lastingWords
  let remaps := repaired b.toNat d.hbm.remaps
  let d := if remaps = d.hbm.remaps then d else d.recordChange
  let d := (d.cleared running remaps).resetCause kindWarm cause site agents warms
  let d := lasting.foldl (fun d x => { d with regs := smapPut d.regs x.1 x.2 }) d
  let d := units.foldl (fun d x => (d.scrubUnit x.1 x.2).scrubLeft x.1) d
  d.log 7 (if site = noSite then noneByte else site) noneByte 3 0 0 [cause, agents]

end Sys2Proof.Machine
end

