-- ==== Sys2Proof/Machine/TempoOps.lean ====
section
/-! DEFINITION. What Tempo and the memory controllers do by themselves (08 R193, R202 to R209, 12 R294, R301 to R308): measures,
refresh bands, patrol scrub, remap copy, shadow copy, carve-out scrub, and the metering snapshot. -/

namespace Sys2Proof.Machine

open Sys2Proof

/-! ### Measures (R301 to R305) -/

/-- The two stacks of a bridge (R191). -/
def bridgeStacks (n : Nat) : List Nat := [6 * (n / 3) + 2 * (n % 3), 6 * (n / 3) + 2 * (n % 3) + 1]

/-- Regulator scale in 1/256 by refresh band (R305). -/
def bandScale (b : Nat) : Nat := if b = 0 then 256 else if b = 1 then 248 else 231

/-- The band an instance's regulators follow: the hotter of a bridge's two stacks; for the host complex the band of R193. -/
def Dev.instBand (d : Dev) (n : Nat) : Nat :=
  if n < 12 then ((bridgeStacks n).map fun s => d.get fHbmStackStatBand s).foldl max 0 else d.get fTmpStatBand 12

/-- Key of the LPDDR5X band among the bands that wait for a boundary. -/
def lpBandKey : Nat := 24

/-- Bands that wait take effect at the boundary of their instance (R207). -/
def Dev.takeBands (d : Dev) (n : Nat) : Dev :=
  let take (d : Dev) (k : Nat) (f : Fld) (i : Nat) : Dev := match smapGet? d.tempo.bands k with
    | some b => (d.set f b i).setTempo { d.tempo with bands := smapDel d.tempo.bands k }
    | none => d
  if n < 12 then (bridgeStacks n).foldl (fun d s => take d s fHbmStackStatBand s) d
  else take d lpBandKey fTmpStatBand 12

/-- The budget of regulator p at instance n (R305, R399): halved where a stack of the bridge does not run at 8 Gb/s. -/
def Dev.budget (d : Dev) (n p : Nat) : Nat :=
  let b := d.get fPrtBwTokens n p * bandScale (d.get fTmpStatBand n) / 256
  if n < 12 && (bridgeStacks n).any (fun s => !(d.get fMntBootStatStacksFull).testBit s) then b / 2 else b

/-- The stacks that hold lines of an HBM unit (R194, R196). -/
def Dev.unitStacks (d : Dev) (u : Nat) : List Nat :=
  if d.floorWide (u % 384 / 3) then List.range 24 else (List.range 6).map (6 * (u / 384) + ·)

/-- BAND and LPM_BAND of a partition (R208). -/
def Dev.hbmEnv (d : Dev) (p : Nat) : Dev :=
  let ss := ((d.hbmUnits p).flatMap d.unitStacks).eraseDups
  let v := ((List.range 24).map fun s => if ss.contains s then d.get fHbmStackStatBand s * 4 ^ s else 0).sum
  (d.set fPrtHbmEnvBand v p).set fPrtHbmEnvLpmBand (d.get fTmpStatBand 12) p

def Dev.hbmEnvs (d : Dev) : Dev :=
  (List.range 48).foldl (fun d p => if d.partState p = partFree then d else d.hbmEnv p) d

/-! ### Temperature (R207 to R209) -/

/-- A stack's band at a temperature: it falls only 2 degrees below its threshold (R207). -/
def bandAt (cur temp : Nat) : Nat :=
  if 95 ≤ temp || (cur = 2 && 93 < temp) then 2 else if 85 ≤ temp || (1 ≤ cur && 83 < temp) then 1 else 0

/-- The band in force or waiting. -/
def Dev.nextBand (d : Dev) (k cur : Nat) : Nat := smapGet d.tempo.bands k cur

/-- A band takes effect at the next boundary. -/
def Dev.setNextBand (d : Dev) (k cur b : Nat) : Dev :=
  d.setTempo { d.tempo with bands := if b = cur then smapDel d.tempo.bands k else smapPut d.tempo.bands k b }

/-- A stack's sensor is read. -/
def Dev.stackTemp (s temp : Nat) (d : Dev) : Dev :=
  let cur := d.get fHbmStackStatBand s
  let d := (d.set fHbmStackStatTemp temp s).setNextBand s cur (bandAt (d.nextBand s cur) temp)
  let d := if 100 ≤ temp then d.set fHbmStackStatThrottle 1 s else if temp < 97 then d.set fHbmStackStatThrottle 0 s else d
  let d := if 103 ≤ temp then (stackTiles s).foldl Dev.slowest (d.set fHbmStackStatClamp 1 s)
    else if temp < 100 then d.set fHbmStackStatClamp 0 s else d
  d.throttledBits.alert

/-- An LPDDR5X channel's devices report a refresh rate: the highest band among the 16 channels is applied (R193). -/
def Dev.lpRate (ch rate : Nat) (d : Dev) : Dev :=
  let d := d.setHbm { d.hbm with lpRates := smapPut d.hbm.lpRates ch (min rate 2) }
  d.setNextBand lpBandKey (d.get fTmpStatBand 12) (((List.range 16).map fun c => smapGet d.hbm.lpRates c 0).foldl max 0)

/-! ### Patrol scrub (R202, R203) -/

/-- A new scrub pass of a stack begins at its first line: corrected errors count from 0. -/
def Dev.newPass (d : Dev) (n : Nat) : Dev :=
  if isHbm (64 * n) && (d.hbmPlace (64 * n)).2 = 0 then
    let s := (d.hbmPlace (64 * n)).1
    d.setHbm { d.hbm with corrected := d.hbm.corrected.filter (fun x => x.1 / 1048576 ≠ s) }
  else d

/-- Patrol scrub reads a line in a beat: a correctable error is written back corrected (R202). -/
def Dev.patrol (n : Nat) (f : Finding) (d : Dev) : Dev :=
  if !d.backed (64 * n) || d.lineBusy n then d
  else match d.spend (d.home (64 * n)) actScrub 1 with
    | none => d
    | some d =>
      let d := d.newPass n
      let d := if f = .uncorrectable || d.hbm.bad.contains n then d.foundBad n
        else if d.isPoisoned n && d.isReplica n then d.log 1 (56 + d.home (64 * n)) noneByte 0 0 (64 * n) []
        else if f = .correctable || d.hbm.weak.contains n then
          (d.corrected n).setHbm { (d.corrected n).hbm with weak := (d.corrected n).hbm.weak.filter (· ≠ n) }
        else d
      d.codeLeaves n f

/-! ### Remap copy (R203) -/

/-- The place of a line in remap unit u of stack s, if it lies there. -/
def Dev.unitIndex (d : Dev) (s u n : Nat) : Option Nat :=
  if isHbm (64 * n) && d.remapUnit n = (s, u) then some ((d.hbmPlace (64 * n)).2 % 65536 / 64) else none

/-- Copying lines [lo, hi) of a unit to its reserve unit: a corrected line is copied corrected, an uncorrectable one with the poison
attribute. -/
def Dev.copyUnit (d : Dev) (s u lo hi : Nat) : Dev :=
  let inside (n : Nat) : Bool := match d.unitIndex s u n with
    | some i => lo ≤ i && i < hi
    | none => false
  let d := (d.hbm.bad.filter inside).foldl (fun d n => d.setPoison n true) d
  d.setHbm { d.hbm with bad := d.hbm.bad.filter (fun n => !inside n), weak := d.hbm.weak.filter fun n => !inside n }

/-- One remap-copy beat of a stack: each line read and written, in order, up to one that another transaction holds. -/
def Dev.remapBeat (s : Nat) (d : Dev) : Dev :=
  let h := stackBridge s
  if !d.remapsRun h then d
  else match d.hbm.remaps.find? (fun r => r.stack = s && r.copied < 1024) with
    | none => d
    | some r =>
      let held := (d.coh.txns.filterMap fun t => d.unitIndex s r.unit t.line).filter (r.copied ≤ ·)
      let hi := held.foldl min (min 1024 (r.copied + min (beatLines h) (d.beatLeft h actRemap) / 2))
      match d.spend h actRemap (2 * (hi - r.copied)) with
      | none => d
      | some d =>
        let d := d.copyUnit s r.unit r.copied hi
        let f (x : Remap) : Remap := if x.stack = s && x.unit = r.unit then { x with copied := hi } else x
        d.setHbm { d.hbm with remaps := d.hbm.remaps.map f }

/-! ### Shadow copy (R234) -/

/-- One line of a granule copied with its poison, in the beats of both lines' homes; none where the beats are used up, or a line is held by
another transaction. -/
def Dev.copyLine (d : Dev) (a b : Nat) : Option Dev :=
  if d.lineBusy a || d.copiesHeld a false || d.lineBusy b || d.copiesHeld b true then none
  else (d.spend (d.home (64 * a)) actShadow 1).bind fun d => (d.spend (d.home (64 * b)) actShadow 1).map fun d =>
    let d := d.takeBack a false
    let d := if d.shcHas (d.home (64 * a)) a then d else d.codeFinds a .clean
    (d.pokeLine b (BitVec.allOnes 64) (d.memLine a)).setPoison b (d.isPoisoned a)

/-- Copying the lines of a granule from line i on, as far as the beats go: how far it came. -/
def Dev.copyLines (a b : Nat) : Nat → Nat → Dev → Nat × Dev
  | 0, i, d => (i, d)
  | fuel + 1, i, d =>
    match d.copyLine (a + i) (b + i) with
    | none => (i, d)
    | some d => Dev.copyLines a b fuel (i + 1) d

def granuleLines (g : Nat) : List Nat := (List.range 1024).map (g / 64 + ·)

/-- A shadow granule whose copy has come to line i. -/
def Cmd.copied (c : Cmd) (granule i : Nat) : Cmd :=
  let f (s : Shadow) : Shadow := if s.granule = granule then { s with copying := i < 1024, next := i } else s
  { c with outputs := c.outputs.map fun o => { o with shadows := o.shadows.map f } }

/-- The original granule of a COW output is copied into its shadow, as far as the beats of the measure go. -/
def Dev.shadowBeat (q slot granule : Nat) (d : Dev) : Dev :=
  match d.cmd? q slot with
  | none => d
  | some c =>
    match (c.outputs.flatMap Output.shadows).find? (fun s => s.granule = granule && s.copying) with
    | none => d
    | some s =>
      let (i, d) := Dev.copyLines (s.old / 64) (s.new / 64) (1024 - s.next) s.next d
      d.putCmd q (c.copied granule i)

/-! ### Carve-out scrub (R294) -/

/-- Lines of [lo, hi) homed at n written to zero, clean and unpoisoned, absent from every cache. -/
def Dev.zeroHomed (d : Dev) (lo hi n : Nat) : Dev :=
  let mine (x : Nat) : Bool := lo ≤ x && x < hi && d.home (64 * x) = n
  let d := { d with mem := d.mem.filter fun c => !mine (c.1 / 64), poison := d.poison.filter fun x => !mine x }
  let d := d.setHbm { d.hbm with bad := d.hbm.bad.filter (fun x => !mine x), weak := d.hbm.weak.filter fun x => !mine x }
  let d := d.setCoh { d.coh with lines := d.coh.lines.filter (fun x => !mine (x.1 / 16)),
                                 tags := d.coh.tags.filter (fun x => !mine (x.1 / 16)),
                                 shc := d.coh.shc.filter (fun x => !mine x.line) }
  d.set fLpmRasStatPoisoned (min 0xFFFF (d.poison.countP fun x => isLp (64 * x)))

/-- Lines of a unit that a beat of one of its dies passes over. -/
def Dev.scrubStride (d : Dev) (x : Scrub) : Nat := beatLines x.inst * (d.unitDies x.unit).length

/-- Removing a finished entry, or recording how far it has come. -/
def Dev.putScrub (d : Dev) (x : Scrub) (next : Nat) : Dev :=
  let l := if 16777216 ≤ next then d.tempo.scrubs.filter (· ≠ x)
    else d.tempo.scrubs.map fun y => if y = x then { y with next := next } else y
  d.setTempo { d.tempo with scrubs := l }

/-- One carve-out scrub beat of instance n: its units in ascending index. -/
def Dev.carveBeat (n : Nat) (d : Dev) : Dev :=
  match d.tempo.scrubs.find? (fun x => x.inst = n) with
    | none => d
    | some x =>
      let lo := unitBase x.unit / 64 + x.next
      let hi := min (unitBase x.unit / 64 + 16777216) (lo + d.scrubStride x)
      if d.coh.txns.any (fun t => lo ≤ t.line && t.line < hi && t.home = n) then d
      else match d.spend n actCarve (beatLines n) with
        | none => d
        | some d => ((d.zeroHomed lo hi n).putScrub x (x.next + d.scrubStride x)).scrubLeft x.part

/-- One beat of snoop-filter maintenance (R172): a duplicate-tag entry with an uncorrectable error makes the home snoop every agent
that may hold the line. -/
def Dev.snoopBeat (n : Nat) (suspect : Option Nat) (d : Dev) : Dev :=
  match d.spend n actSnoop (beatLines n), suspect with
  | some d, some x =>
    if !isMemory (64 * x) || d.home (64 * x) ≠ n then d else d.setCoh { d.coh with suspect := insertNat d.coh.suspect x }
  | some d, none => d
  | none, _ => d

/-! ### The metering snapshot (R308) -/

def kindSnapshot : Nat := 5

def snapBytes (count : Nat) : Nat := 64 + 64 * count
def snapSlots (count : Nat) : Nat := (snapBytes count + 4095) / 4096

/-- The slots of a record are handed to the device for it. -/
def Dev.snapOwned (d : Dev) (first count : Nat) : Bool :=
  (List.range (snapSlots count)).all fun i => d.xwOffered (first + i) kindSnapshot

def Dev.snapDone (d : Dev) (result : Nat) : Dev :=
  ((d.set fMtrSnapStatBusy 0).set fMtrSnapStatResult result).setTempo { d.tempo with snapshot := none, sampled := none }

/-- The slots of a record. -/
def snapAt (first count : Nat) : List Nat := (List.range (snapSlots count)).map (first + ·)

/-- A snapshot is requested: refused for slots the device does not own, past the end of the window, or contexts above 4,095. -/
def Dev.snapGo (d : Dev) : Dev :=
  if d.get fMtrSnapStatBusy = 1 then d
  else
    let slot := d.get fMtrSnapCtlFirstSlot
    let ctx := d.get fMtrSnapCtlFirstCtx
    let count := d.get fMtrSnapCtlCount
    if count = 0 || 4096 < ctx + count || 16384 < slot + snapSlots count || !d.snapOwned slot count then d.snapDone 1
    else ((d.xwTakeAll (snapAt slot count)).set fMtrSnapStatBusy 1).setTempo { d.tempo with snapshot := some (slot, ctx, count), sampled := none }

/-- A context's part of the record. -/
def Dev.snapCtx (d : Dev) (ctx : Nat) : List Byte :=
  let m := smapGet d.tempo.meters ctx Meter.zero
  let p := ((List.range 48).find? fun p => d.partState p = partActive && d.ctxIn p ctx).getD noneByte
  leBytes 2 ctx ++ leBytes 1 p ++ leBytes 5 0 ++ leBytes 8 m.coreCycles.toNat ++ leBytes 8 m.preemptCycles.toNat
    ++ leBytes 8 m.arrayMacs.toNat ++ leBytes 8 m.hbmBytes.toNat ++ leBytes 8 m.lpddrBytes.toNat ++ leBytes 8 m.commits.toNat
    ++ leBytes 8 0

def Dev.snapRecord (d : Dev) (seq ctx count : Nat) : List Byte :=
  leBytes 8 seq ++ leBytes 8 d.measureNow ++ leBytes 2 ctx ++ leBytes 2 count ++ leBytes 44 0
    ++ (List.range count).flatMap fun i => d.snapCtx (ctx + i)

/-- Every counter is sampled at the first measure boundary of the host complex after the request. -/
def Dev.snapBoundary (d : Dev) : Dev :=
  match d.tempo.snapshot, d.tempo.sampled with
  | some (_, ctx, count), none =>
    d.setTempo { d.tempo with sampled := some (d.snapRecord ((d.get fMtrSnapStatSnapSeq + 1) % 2 ^ 32) ctx count) }
  | _, _ => d

/-- The sampled record is written and the slots returned; a flag changed by another writer ends it (R326). -/
def Dev.snapSample (d : Dev) : Dev :=
  match d.tempo.snapshot, d.tempo.sampled with
  | some (slot, _, count), some bytes =>
    if !(snapAt slot count).all d.xwKept then
      ((d.snapDone 1).xwForget (snapAt slot count)).log 11 noneByte noneByte 0 0 0 [slot]
    else
      let seq := (d.get fMtrSnapStatSnapSeq + 1) % 2 ^ 32
      let d := d.poke (d.xwSlot slot) bytes
      let d := (List.range (snapSlots count)).foldl (fun d i =>
        d.xwRelease (slot + i) kindSnapshot (min 4096 (snapBytes count - 4096 * i))) d
      (d.snapDone 0).set fMtrSnapStatSnapSeq seq
  | _, _ => d

/-! ### A measure ends -/

/-- A measure of instance n ends and the next begins: TMP_BEATS words and bands that wait take effect, every regulator loads
its budget, unused tokens expire, and every activity has its beats again (R301, R302, R305, R207); at
the host complex, a snapshot that waits is sampled (R308). -/
def Dev.measure (n : Nat) (d : Dev) : Dev :=
  let d := d.setTempo { d.tempo with measures := smapPut d.tempo.measures n (smapGet d.tempo.measures n 0 + 1) }
  let d := if n = 12 then d.snapBoundary else d
  let d := match smapGet? d.tempo.beats n with
    | some w => (d.setWord .tmpBeats n 0 w.toNat).setTempo { d.tempo with beats := smapDel d.tempo.beats n }
    | none => d
  let d := d.takeBands n
  let d := d.set fTmpStatBand (d.instBand n) n
  let d := d.setTempo { d.tempo with
    lentLines := smapDel d.tempo.lentLines n, used := d.tempo.used.filter fun x => x.1 / 16 ≠ n }
  let d := (List.range 49).foldl (fun d p =>
    d.setTempo { d.tempo with budgets := smapPut d.tempo.budgets (64 * n + p) (d.budget n p) }) d
  d.hbmEnvs

end Sys2Proof.Machine
end

