-- ==== Sys2Proof/Machine/ActivateOps.lean ====
section
/-! DEFINITION. Activating and dissolving partitions (12 R287 to R295), attestation (R309), and the provider's memory maps (08 R197,
R213). -/

namespace Sys2Proof.Machine

open Sys2Proof

/-! ### The checks of ACTIVATE (R292) -/

def prtDone : Nat := 0
def prtConflict : Nat := 1
def prtInvalid : Nat := 2
def prtScrubbing : Nat := 3
def prtBandwidth : Nat := 4
def prtWrongState : Nat := 5

/-- The units of a carve-out, LPDDR5X units counting from 2,048. -/
def Dev.units (d : Dev) (p : Nat) : List Nat := d.hbmUnits p ++ (d.lpUnits p).map (2048 + ·)

def meet (a b : List Nat) : Bool := a.any b.contains

/-- A tile, host core, unit, or block of IDs of another partition that is not FREE. -/
def Dev.actConflict (d : Dev) (p : Nat) : Bool :=
  (List.range 48).any fun o => o ≠ p && d.partState o ≠ partFree &&
    (meet (d.tiles p) (d.tiles o) || meet (d.hcores p) (d.hcores o) || meet (d.units p) (d.units o)
      || blocksMeet (d.ctxFirst p) (d.ctxCount p) (d.ctxFirst o) (d.ctxCount o)
      || blocksMeet (d.qFirst p) (d.get fClrQRangeCount p) (d.qFirst o) (d.get fClrQRangeCount o))

/-- A named unit that is still being scrubbed (R294). -/
def Dev.actScrubbing (d : Dev) (p : Nat) : Bool := (d.units p).any fun u => d.tempo.scrubs.any fun x => x.unit = u

/-- Does following PARENT from gang j reach the root within n levels, every gang on the way valid? -/
def Dev.gangRooted (d : Dev) (p : Nat) : Nat → Nat → Bool
  | 0, _ => false
  | n + 1, j => d.gangValid p j && (match d.gangParent p j with
      | none => true
      | some k => Dev.gangRooted d p n k)

def Dev.validGangs (d : Dev) (p : Nat) : List Nat := (List.range 16).filter fun j => d.gangValid p j

/-- A broken gang rule (R288, R292). -/
def Dev.gangsBad (d : Dev) (p : Nat) : Bool :=
  let gs := d.validGangs p
  let own (j : Nat) : List Nat := bitsBelow 48 (d.gangTilesOwn p j)
  gs.any fun j =>
    (own j).any (fun t => !(d.tiles p).contains t || gs.any fun k => k ≠ j && (own k).contains t)
      || !d.gangRooted p 16 j
      || (own j = [] && gs.all fun k => d.gangParent p k ≠ some j)

/-- A unit that cannot be carved out (R2, R193, R195): the last two of a quadrant window, LPDDR5X that the poison bitmap takes or beyond, and a
withdrawn LPDDR5X unit. -/
def Dev.unitWithheld (d : Dev) (u : Nat) : Bool :=
  if u < 2048 then 382 ≤ u % 384 else (d.lpPopulated - d.lpPopulated / 512) / gib ≤ u - 2048 || d.hbm.lpWithdrawn.contains (u - 2048)

/-- A unit of a valid replicated pair (R213). -/
def Dev.unitPaired (d : Dev) (u : Nat) : Bool :=
  (List.range 64).any fun j => d.get fHbmReplPairValid j = 1 &&
    (d.get fHbmReplPairPrimary j = u || d.get fHbmReplPairReplica j = u)

/-- The 12 units of block j (R196). -/
def blockUnits (j : Nat) : List Nat := (List.range 4).flatMap fun q => (List.range 3).map fun i => 384 * q + 3 * j + i

/-- A floor-wide block of which only some units are named (R197). -/
def Dev.blockCut (d : Dev) (p : Nat) : Bool :=
  let us := d.hbmUnits p
  us.any fun u => d.floorWide (u % 384 / 3) && !(blockUnits (u % 384 / 3)).all us.contains

/-- Is an X field of a feature in use unwritten (R11, R292)? -/
def Dev.xUnwritten (d : Dev) (p : Nat) : Bool :=
  let un (r : Reg) : Bool := !d.written.contains (regKey r p 0)
  un .xltFqBase || (d.get fClrQRangeCount p ≠ 0 && un .clrQtab) || (d.ctxCount p ≠ 0 && un .clrCtxTab)
    || (d.get fPrtReserveCtlCount p ≠ 0 && un .prtReserveBase) || (d.hcores p ≠ [] && un .prtHcoreEntry)

/-- Do bytes [lo, hi) lie in a partition's carve-out? -/
def Dev.inCarve (d : Dev) (p lo hi : Nat) : Bool :=
  lo < hi && (List.range ((hi - 1) / gib - lo / gib + 1)).all fun i =>
    (d.units p).any fun u => unitBase u = (lo / gib + i) * gib

/-- A reserve list that breaks R295. -/
def Dev.reserveBad (d : Dev) (p : Nat) : Bool :=
  let n := d.get fPrtReserveCtlCount p
  let base := d.get fPrtReserveBaseBase p * 4096
  let gs := (List.range n).map fun i => natBitsAt (d.peekWord (d.reserveAt p i)) 0 36 * granuleBytes
  n ≠ 0 && (!d.inCarve p base (base + 8 * n) || gs.any (fun g => !d.inCarve p g (g + granuleBytes))
    || gs.eraseDups.length ≠ n)

def Dev.actInvalid (d : Dev) (p : Nat) : Bool :=
  d.gangsBad p || (d.units p).any (fun u => d.unitWithheld u || d.unitPaired u) || d.blockCut p || d.xUnwritten p || d.reserveBad p

/-- TENANT_TOKENS of instance n for a sum P of beats (R304). -/
def tenantTokens (n p : Nat) : Nat :=
  let k := beatLines n
  min (k * (248 - p)) (min (k * (240 - p) * 256 / 248) (k * (224 - p) * 256 / 231))

/-- P: the sum of the beat fields of a TMP_BEATS word. -/
def beatSum (w : Nat) : Nat := ((List.range 9).map fun i => natBitsAt w (6 * i) 6).sum

/-- The tokens granted at instance n to every active partition, to p and to the row 48. -/
def Dev.granted (d : Dev) (n p : Nat) : Nat :=
  ((List.range 49).map fun o =>
    if o = 48 || o = p || d.partState o ≠ partFree then d.get fPrtBwTokens n o else 0).sum

def Dev.actBandwidth (d : Dev) (p : Nat) : Bool :=
  (List.range 13).any fun n => tenantTokens n (beatSum (d.word .tmpBeats n 0)) < d.granted n p

/-- The first check that fails, in their order. -/
def Dev.actResult (d : Dev) (p : Nat) : Nat :=
  if d.actConflict p then prtConflict else if d.actScrubbing p then prtScrubbing else if d.actInvalid p then prtInvalid
  else if d.actBandwidth p then prtBandwidth else prtDone

/-! ### ACTIVATE -/

def Dev.prtAnswer (d : Dev) (p result : Nat) : Dev := (d.set fPrtStatBusy 0 p).set fPrtStatResult result p

/-- A partition becomes ACTIVE (R292, R295, R311, R327, R403). -/
def Dev.becomeActive (d : Dev) (p : Nat) : Dev :=
  let x := d.part p
  let d := d.setPart p
    { Part.initial with signals := x.signals, errors := x.errors, fqCtl := BitVec.ofNat 64 (d.word .xltFqCtl p 0) }
  let n := d.get fPrtReserveCtlCount p
  let d := d.setWord .prtReserveStat p 0 (n + n * 2 ^ 24)
  let d := (d.setWord .clrCommitSeq p 0 0).setWord .prtReinitStat p 0 (regReset .prtReinitStat)
  let d := d.setWord .prtService p 0 (if d.get fMntBootStatStage = 5 then 1 else 0)
  let d := (d.set fPrtStatState partActive p).prtAnswer p prtDone
  ((d.hbmEnv p).hartsStart p).throttledBits.capChange

/-- The checks, and the activation when all pass. -/
def Dev.activateNow (d : Dev) (p : Nat) : Dev :=
  let r := d.actResult p
  if r = prtDone then d.becomeActive p else d.prtAnswer p r

/-- ACTIVATE written: with FULL_UNLOCK at 1 it stays BUSY until that is cleared (R364). -/
def Dev.activate (p : Nat) (d : Dev) : Dev :=
  if d.get fPrtStatBusy p = 1 then d
  else if d.partState p ≠ partFree then d.prtAnswer p prtWrongState
  else if d.get fFlrTestCtlFullUnlock = 1 then d.set fPrtStatBusy 1 p
  else d.activateNow p

/-- The activations that waited for FULL_UNLOCK to be cleared. -/
def Dev.activateWaiting (d : Dev) : Dev :=
  (List.range 48).foldl (fun d p =>
    if d.get fPrtStatBusy p = 1 && d.partState p = partFree then d.activateNow p else d) d

/-! ### DISSOLVE (R293) and REINITIALISE (R371) -/

def Dev.dissolve (p : Nat) (d : Dev) : Dev :=
  if d.get fPrtStatBusy p = 1 then d
  else if d.partState p ≠ partActive then d.prtAnswer p prtWrongState
  else
    let d := ((d.set fPrtStatState partDissolving p).set fPrtStatBusy 1 p).set fPrtStatResult prtDone p
    let d := (d.partQueues p).foldl (fun d q => if (d.queue q).st = .destroying then d else d.destroyQueue q) d
    if d.partState p = partDissolving && d.queuesFree p && (d.part p).reinit = none then d.dissolveRest p else d

def Dev.reinitialise (p : Nat) (d : Dev) : Dev :=
  if d.get fPrtStatBusy p = 1 then d
  else if d.partState p ≠ partActive then d.prtAnswer p prtWrongState
  else ((d.set fPrtStatBusy 1 p).set fPrtStatResult prtDone p).startReinit p reinitWritten 0x3F []

/-- A write of PRT_CTLp (R291, R434): a reserved OP is answered INVALID. -/
def Dev.writePrtCtl (p v : Nat) (d : Dev) : Dev :=
  let op := natBitsAt v 0 2
  if op = 1 then d.activate p
  else if op = 2 then d.dissolve p
  else if op = 3 then d.reinitialise p
  else if d.get fPrtStatBusy p = 1 then d
  else d.prtAnswer p prtInvalid

/-- A re-initialisation not complete within 20 ms: level 3 (R368). -/
def Dev.reinitOver (p : Nat) (d : Dev) : Dev :=
  if (d.part p).reinit = none then d else d.warmReset 4 noSite 0

/-! ### Replicated pairs (R213) and floor-wide blocks (R197) -/

/-- Is a unit in a carve-out of a partition that is not FREE? -/
def Dev.unitOwned (d : Dev) (u : Nat) : Bool := (List.range 48).any fun p => d.partState p ≠ partFree && (d.units p).contains u

/-- The rules of a pair with VALID 1. -/
def Dev.pairOk (d : Dev) (a b : Nat) : Bool :=
  let unit (u : Nat) : Bool := u < 1536 && u % 384 ≤ 381 && !d.floorWide (u % 384 / 3) && !d.unitOwned u
  unit a && unit b && a / 384 ≠ b / 384

def Dev.writePair (j v : Nat) (d : Dev) : Dev :=
  if v.testBit 63 && !d.pairOk (natBitsAt v 0 11) (natBitsAt v 16 11) then d
  else d.setWord .hbmReplPair j 0 (regWrite .hbmReplPair false (d.word .hbmReplPair j 0) v)

/-- The exchange window, its flags, the window and route tables: the provider's structures that the device knows of. -/
def Dev.providerPlaces (d : Dev) : List (Nat × Nat) :=
  (if d.xwOn then [(d.xwSlot 0, 67108864), (d.xwFlagAt 0, 131072)] else [])
    ++ (if d.get fXltWinBaseEnable = 1 then [(d.get fXltWinBaseBase * 4096, 2097152), (d.get fRelRouteBaseBase * 4096, 8192)] else [])

/-- May the bit of block j change: no unit in a carve-out or still scrubbed after one, in a pair or holding a structure of the
provider, and no line held in any cache? -/
def Dev.blockFree (d : Dev) (j : Nat) : Bool :=
  let us := blockUnits j
  let inBlock (line : Nat) : Bool := us.contains (64 * line / gib)
  us.all (fun u => !d.unitOwned u && !d.unitPaired u && d.tempo.scrubs.all fun x => x.unit ≠ u)
    && d.providerPlaces.all (fun x => us.all fun u => x.1 + x.2 ≤ u * gib || (u + 1) * gib ≤ x.1)
    && d.coh.lines.all (fun x => x.2.st = .i || !inBlock (x.1 / 16)) && d.coh.shc.all (fun x => !inBlock x.line)
    && d.coh.txns.all (fun t => !inBlock t.line) && d.cores.all fun x => x.2.near.all fun l => !inBlock l.line

def Dev.writeFwMap (i v : Nat) (d : Dev) : Dev :=
  let old := d.word .hbmFwMap i 0
  let n := if i = 0 then 64 else 63
  let new := ((List.range n).map fun b =>
    let want := if d.blockFree (64 * i + b) then v.testBit b else old.testBit b
    if want then 2 ^ b else 0).sum
  d.setWord .hbmFwMap i 0 new

/-! ### Attestation (R309) -/

/-- Putting a register on a list ascending in address. -/
def insertReg : List (Nat × Nat) → Nat × Nat → List (Nat × Nat)
  | [], x => [x]
  | y :: t, x => if x.1 < y.1 then x :: y :: t else y :: insertReg t x

def isRwl (r : Reg) : Bool := (regFields r).any fun f => f.acc = .rwl

/-- The values that CONFIG_DIGEST covers, in ascending register address: every RWL register of the partition's page, then its and the
row 48's SHC_WAYS and PRT_BW. -/
def Dev.configWords (d : Dev) (p : Nat) : List (Nat × Nat) :=
  let page := allRegs.flatMap fun r =>
    if (regInfo r).part && isRwl r then (List.range (regInfo r).count).map fun i =>
      (regAddr r p i, if r = .xltFqCtl then (d.part p).fqCtl.toNat else d.word r p i)
    else []
  let rows := (List.range 13).flatMap fun n => [p, 48].flatMap fun o =>
    [(regAddr .shcWays n o, d.word .shcWays n o), (regAddr .prtBw n o, d.word .prtBw n o)]
  (page ++ rows).foldl insertReg []

/-- Bytes 0 to 415 of the report: the digests of the images' version records and of the cut-in maps are over formats the spec
leaves open (log 25). -/
def Dev.reportBody (d : Dev) (p : Nat) (fw cut : List Byte) : List Byte :=
  let config := sha384 ((d.configWords p).flatMap fun x => leBytes 8 x.2)
  leBytes 4 0x46545241 ++ leBytes 2 1 ++ leBytes 1 p ++ leBytes 1 (d.get fPrtServiceLevel p) ++ leBytes 8 d.measureNow
    ++ ((List.range 4).flatMap fun i => leBytes 8 (d.word .prtAttestNonce p i)) ++ config
    ++ fw ++ cut ++ List.replicate 224 0

/-- Filling PRT_ATTEST_REPORT. -/
def Dev.putReport (d : Dev) (p : Nat) (bs : List Byte) : Dev :=
  (List.range 64).foldl (fun d i => d.setWord .prtAttestReport p i (leNat ((bs.drop (8 * i)).take 8))) d

/-- GO: a report signed with the identity key; the signature's bytes are open. Refused for a partition that is not ACTIVE, or
without an identity (R396). -/
def Dev.attest (p : Nat) (d : Dev) : Dev :=
  if d.get fPrtAttestStatBusy p = 1 then d
  else if d.partState p ≠ partActive || d.get fMntIdStatIdValid = 0 then d.set fPrtAttestStatResult 1 p
  else
    let (fw, d) := Dev.drawBytes 48 d
    let (cut, d) := Dev.drawBytes 48 d
    let (sig, d) := Dev.drawBytes 96 d
    (d.putReport p (d.reportBody p fw cut ++ sig)).set fPrtAttestStatResult 0 p

/-- A write of MTR_SNAP_CTL (R308, R434): with GO it is taken whole or refused whole. -/
def Dev.writeSnap (v : Nat) (d : Dev) : Dev :=
  let wr := d.setWord .mtrSnapCtl 0 0 (regWrite .mtrSnapCtl false (d.word .mtrSnapCtl 0 0) v)
  if !v.testBit 63 then wr
  else if d.get fMtrSnapStatBusy = 1 then d
  else if regWriteReserved .mtrSnapCtl v then d.set fMtrSnapStatResult 1
  else
    let r := wr.snapGo
    if r.tempo.snapshot.isSome then r else d.set fMtrSnapStatResult 1

end Sys2Proof.Machine
end

