-- ==== Sys2Proof/Machine/FaultOps.lean ====
section
/-! DEFINITION. Faults of dies and host cores (16 R367 to R370, 15 R361), and a fault of the new site of a cut-in (18 R408). -/

namespace Sys2Proof.Machine

open Sys2Proof

/-! ### Tile dies -/

/-- Commands with an engine on a tile. -/
def Dev.tileHolders (d : Dev) (t : Nat) : List (Nat × Cmd) :=
  d.allCmds.filter fun x => x.2.engines.any fun r => r.eng.tile? = some t

/-- Every command with an engine on a tile is killed, by a unit fault (R369) or by a cut-in (R407), and the arbiter records it. -/
def Dev.killTile (d : Dev) (why : KillWhy) (t : Nat) : Dev :=
  (d.tileHolders t).foldl (fun d x => (d.sendKill x.1 x.2.slot why).killArrives x.1 x.2.slot) d

/-- An ISOLATE reset is the acknowledgement of every kill sent to the tile (R370). -/
def Dev.tileAcks (d : Dev) (t : Nat) : Dev :=
  (d.tileHolders t).foldl (fun d x =>
    (List.range x.2.engines.length).foldl (fun d i =>
      match x.2.engines[i]? with
      | some e => if e.eng.tile? = some t then d.ackEngine x.1 x.2.slot i else d
      | none => d) d) d

/-- A tile site in service leaves it: its commands are killed, its die is isolated, it reads WITHDRAWN. -/
def Dev.withdrawTile (d : Dev) (n : Nat) : Dev :=
  let t := d.get fFlrSiteStatLogicalTile n
  let d := (d.killTile .unitFault t).tileAcks t
  ({ d with walks := d.walks.filter fun w => w.tile ≠ t }.isolate n siteWithdrawn).recordChange

/-- Does a tile site in service run? -/
def Dev.servesTile (d : Dev) (n : Nat) : Bool := n < 56 && d.get fFlrSiteStatRole n = 0 && d.siteState n = siteRunning

/-- Sites that will not be spares again (R407), and a spare less in their quadrant. -/
def Dev.retire (d : Dev) (n : Nat) : Dev := d.setFloor { d.floor with retired := insertNat d.floor.retired n }

def Dev.spareGone (d : Dev) (n : Nat) : Dev :=
  let v := d.get fCutStatTileSpares
  let k := 2 * (n / 14)
  d.set fCutStatTileSpares (natSetBits v k 2 (natBitsAt v k 2 - 1))

/-- The new site of a cut-in fails before the record changes (R408): the cut-in ends, a new proposal names the next spare. -/
def Dev.cutinFails (d : Dev) (x : TileCutin) : Dev :=
  let reason := d.get fCutPropReason x.entry
  let d := (d.siteDown x.site siteFailed).retire x.site
  let d := (d.spareGone x.site).recordChange
  let d := d.setMinuet { d.minuet with tileCutins := d.minuet.tileCutins.filter fun y => y.tile ≠ x.tile }
  ((d.clearProp x.entry).fillProps).proposeTile x.tile reason

/-- A tile die reports a fault (R370). -/
def Dev.tileFault (n : Nat) (d : Dev) : Dev :=
  match d.minuet.tileCutins.find? fun x => x.site = n with
  | some x => (d.log 5 n noneByte 1 0 0 []).cutinFails x
  | none =>
    if !d.servesTile n then d
    else
      let t := d.get fFlrSiteStatLogicalTile n
      (((d.log 5 n ((d.tilePart t).getD noneByte) 1 0 0 []).withdrawTile n).proposeTile t 6)

/-- The die has not entered reset 50 µs after its report: it loses power, and its partition is re-initialised (R370). -/
def Dev.isolateLate (n : Nat) (d : Dev) : Dev :=
  let st := d.siteState n
  if !(n < 56 && d.get fFlrSiteStatRole n = 0 && (st = siteRunning || st = siteWithdrawn)) then d
  else
    let t := d.get fFlrSiteStatLogicalTile n
    let p := d.tilePart t
    let d := d.log 5 n (p.getD noneByte) 2 0 0 []
    let d := match p with
      | some p => d.startReinit p reinitIsolate n []
      | none => d
    let d := d.isolate n siteWithdrawn
    (if st = siteWithdrawn then d else d.recordChange).proposeTile t 6

/-! ### Host cores -/

/-- A fault of a host core that runs (R367, R368): its partition is re-initialised without it; the trigger names a core group, whose
numbers the spec leaves open. -/
def Dev.hostFault (h : Nat) (d : Dev) : Dev :=
  if !d.host.running.contains h then d
  else
    let d := d.setHost { d.host with failed := insertNat d.host.failed h, running := d.host.running.filter (· ≠ h) }
    let (g, d) := d.recordChange.draw
    let d := d.log 5 68 ((d.hartPart h).getD noneByte) 2 0 0 [h]
    let d := match d.hartPart h with
      | some p => d.startReinit p reinitHost (g.toNat % 64) []
      | none => d
    d.propose kindHost noSite h 1

/-! ### Shared dies (R368) -/

/-- A device warm reset, which only a device past its reset makes. -/
def Dev.warmNow (cause site agents : Nat) (d : Dev) : Dev :=
  if d.get fMntBootStatStage = 0 then d else d.warmReset cause site agents

def Dev.bridgeFault (n : Nat) (d : Dev) : Dev := if 56 ≤ n && n < 68 then d.warmNow 1 n 0 else d

/-- Agents 0 to 12 of the list that are dead. -/
def Dev.agentsFault (agents : Nat) (d : Dev) : Dev :=
  let dead := Nat.land (agents % 2 ^ 13) (d.get fShcAgentDeadDead)
  if dead = 0 then d else d.warmNow 3 noSite dead

def Dev.sharedFault (f : SharedFault) (d : Dev) : Dev :=
  match f with
  | .bridge n => d.bridgeFault n.val
  | .hostComplex => d.warmNow 2 68 0
  | .deadAgents a => d.agentsFault a.toNat

/-- A PLL of a die loses lock (R361): the die's fault, as of its kind; in stand-alone test it is the test's alone. -/
def Dev.pllLost (n : Nat) (d : Dev) : Dev :=
  if d.siteState n = siteStandalone then d.set fFlrSiteStatPllLock 0 n
  else if n < 56 then d.tileFault n
  else if d.siteState n ≠ siteRunning then d
  else if n < 68 then d.bridgeFault n
  else d.warmNow 2 68 0

end Sys2Proof.Machine
end

