-- ==== Sys2Proof/Machine/MinuetOps.lean ====
section
/-! DEFINITION. The Minuet complex (17): the mailbox and its commands (R388 to R393, R302, R406, R206), feature negotiation (R395),
watchdogs (R382), the power and thermal loops (R383 to R387). -/

namespace Sys2Proof.Machine

open Sys2Proof

/-! ### The mailbox (R388) -/

def mboxDone : Nat := 0
def mboxRefused : Nat := 1
def mboxAccepted : Nat := 2
def mboxBadArg : Nat := 3

/-- A command is answered: RESULT, SEQ, companion event 1. -/
def Dev.mboxAnswer (d : Dev) (result : Nat) : Dev :=
  (((d.set fMntMboxStatBusy 0).set fMntMboxStatResult result).bumpWrap fMntMboxStatSeq).event 1

/-- Running a command unless one is unanswered. -/
def Dev.mbox (d : Dev) (f : Dev → Nat × Dev) : Dev :=
  if d.get fMntMboxStatBusy = 1 then d
  else
    let (r, d) := f d
    d.mboxAnswer r

def kindPayload : Nat := 6
def kindImage : Nat := 1
def kindLog : Nat := 3
def kindTelemetry : Nat := 4

/-- Returning a payload slot to the companion as it is. -/
def Dev.returnSlot (d : Dev) (n : Nat) : Dev :=
  d.xwRelease n (natBitsAt (d.xwFlag n) 8 8) (natBitsAt (d.xwFlag n) 16 13)

/-- The n first bytes of a payload slot, which goes back to the companion; none where the slot is not the device's, the payload is
shorter or poisoned. -/
def Dev.payload (d : Dev) (slot n : Nat) : Option (List Byte) × Dev :=
  if !d.xwOwned slot kindPayload then (none, d)
  else
    let (bs, bad) := d.peek (d.xwSlot slot) n
    let d := d.noted (d.xwSlot slot) n
    let long := n ≤ natBitsAt (d.xwFlag slot) 16 13
    (if bad || !long then none else some bs, d.returnSlot slot)

/-! ### SET_BEATS (R302) -/

/-- A TMP_BEATS word as instance n keeps it: RES0 bits 0, REMAP 0 at the host complex. -/
def beatsWord (n w : Nat) : Nat :=
  let w := natSetBits w 54 9 0
  if n = 12 then natSetBits w 6 6 0 else w

/-- May instance n take the word? -/
def Dev.beatsFit (d : Dev) (n w : Nat) : Bool := beatSum w ≤ 64 && d.granted n 48 ≤ tenantTokens n (beatSum w)

def Dev.putBeats (d : Dev) (ws : List Nat) : Dev :=
  (List.range 13).foldl (fun d n =>
    d.setTempo { d.tempo with beats := smapPut d.tempo.beats n (BitVec.ofNat 64 (ws.getD n 0)) }) d

def Dev.setBeats (slot slots : Nat) (d : Dev) : Nat × Dev :=
  if slots = 0 then (mboxBadArg, d)
  else match d.payload slot 104 with
    | (none, d) => (mboxRefused, d)
    | (some bs, d) =>
      let ws := (List.range 13).map fun n => beatsWord n ((wordsOf bs 13).getD n 0)
      if (List.range 13).all fun n => d.beatsFit n (ws.getD n 0) then (mboxDone, d.putBeats ws) else (mboxRefused, d)

/-! ### Slots for the log and for telemetry (R388, R389) -/

def Dev.logSlots (slot slots : Nat) (d : Dev) : Nat × Dev :=
  let ns := (List.range slots).map (slot + ·)
  if ns.all fun n => d.xwOffered n kindLog then
    (mboxDone, Dev.logDrain (d.minuet.logHeld.length + slots)
      ((d.xwTakeAll ns).setMinuet { (d.xwTakeAll ns).minuet with logSlots := d.minuet.logSlots ++ ns }))
  else (mboxRefused, d)

def Dev.telemSlots (slot slots : Nat) (d : Dev) : Nat × Dev :=
  let ns := (List.range slots).map (slot + ·)
  if ns.all fun n => d.xwOffered n kindTelemetry then
    (mboxDone, (d.xwTakeAll ns).setMinuet { (d.xwTakeAll ns).minuet with telemSlots := d.minuet.telemSlots ++ ns })
  else (mboxRefused, d)

/-- One telemetry slot a second, whose contents the spec leaves open, in the telemetry beats of the host complex (R301); without a beat left
it waits. -/
def Dev.telemetry (d : Dev) : Dev :=
  match d.minuet.telemSlots with
  | [] => d
  | n :: rest =>
    if !d.xwKept n then
      ((d.setMinuet { d.minuet with telemSlots := rest }).xwForget [n]).log 11 noneByte noneByte 0 0 0 [n]
    else match d.spend 12 actTelem 64 with
      | none => d
      | some d =>
        let d := d.setMinuet { d.minuet with telemSlots := rest }
        let (len, d) := d.draw
        let (bs, d) := Dev.drawBytes (len.toNat % 4097) d
        (d.poke (d.xwSlot n) bs).xwRelease n kindTelemetry (len.toNat % 4097)

/-- A partly filled log slot is released once a second. -/
def Dev.logFlush (d : Dev) : Dev :=
  if d.minuet.logFill = 0 then d
  else if d.logSlotGone then
    ((d.setMinuet { d.minuet with logSlots := d.minuet.logSlots.tail, logFill := 0 }).xwForget (d.minuet.logSlots.take 1)).log 11
      noneByte noneByte 0 0 0 (d.minuet.logSlots.take 1)
  else d.logRelease

/-! ### Images (R391, R392) -/

/-- The slots that hold an image are the device's. -/
def Dev.imageOwned (d : Dev) (slot slots : Nat) : Bool :=
  (List.range slots).all fun i => d.xwOwned (slot + i) kindImage || d.xwOwned (slot + i) kindPayload

def Dev.stage (slot slots : Nat) (d : Dev) : Nat × Dev :=
  if slots = 0 then (mboxBadArg, d)
  else if d.minuet.verifying ≠ none || d.minuet.handover ≠ none || !d.imageOwned slot slots then (mboxRefused, d)
  else
    let d := d.xwTakeAll ((List.range slots).map (slot + ·))
    (mboxAccepted, (d.setMinuet { d.minuet with verifying := some (slot, slots) }).setFw fwVerifying 0)

/-- A verified image becomes the staged image of its kind. -/
def Dev.imageStaged (d : Dev) (v : ImageVerdict) : Dev :=
  if v.kind = 1 then
    let i : Image := { version := v.version.toNat, security := v.securityVersion.toNat, handoff := v.handoffVersion.toNat }
    ((d.setMinuet { d.minuet with staged := some i }).set fMntFwStatStaged (v.version.toNat / 256)).setFw fwIdle 0
  else (d.setHost { d.host with fwStaged := some v.version.toNat }).setFw fwIdle 0

/-- Verification ends: the slots go back; a flag that another writer changed ends it (R326). -/
def Dev.verified (v : ImageVerdict) (d : Dev) : Dev :=
  match d.minuet.verifying with
  | none => d
  | some (slot, slots) =>
    let d := d.setMinuet { d.minuet with verifying := none }
    let ns := (List.range slots).map (slot + ·)
    if !ns.all d.xwKept then ((d.setFw fwIdle 0).xwForget ns).log 11 noneByte noneByte 0 0 0 [slot]
    else
      let d := (List.range slots).foldl (fun d i => d.returnSlot (slot + i)) d
      if !v.keyOk || !v.signatureOk || !(v.kind = 1 || v.kind = 2) then d.setFw fwRefusedSignature 0
      else if v.securityVersion.toNat < d.minuet.minSecurity then d.setFw fwRefusedVersion 0
      else d.imageStaged v

/-! ### Activation (R393, R394) -/

def coreSpare : Nat := 0
def coreInService : Nat := 1
def coreRestarting : Nat := 2
def coreWithdrawn : Nat := 3

def Dev.coreState (d : Dev) (c : Nat) : Nat := natBitsAt (d.get fMntCoreStatCoreState) (2 * c) 2
def Dev.setCoreState (d : Dev) (c st : Nat) : Dev :=
  d.set fMntCoreStatCoreState (natSetBits (d.get fMntCoreStatCoreState) (2 * c) 2 st)

def Dev.coresIn (d : Dev) (st : Nat) : List Nat := (List.range 6).filter fun c => d.coreState c = st

/-- A staged Minuet image begins to boot on the spare cores. -/
def Dev.bootStaged (d : Dev) : Dev :=
  if d.coresIn coreSpare = [] then d.setFw fwNoSpare 0
  else (d.setMinuet { d.minuet with handover := some { moved := none, slot := none } }).setFw fwBooting 0

/-- The host M-mode image staged is the one that cores leaving reset run from now on (R392). -/
def Dev.commitHostImage (d : Dev) : Dev :=
  match d.host.fwStaged with
  | some v => d.setHost { d.host with fwRunning := v, fwStaged := none }
  | none => d

def Dev.activateImage (d : Dev) : Nat × Dev :=
  if d.minuet.verifying ≠ none || d.minuet.handover ≠ none then (mboxRefused, d)
  else if d.minuet.staged.isSome then
    (mboxAccepted, if d.get fMntPwrStatEmergency = 1 then d.setFw fwDeferred 0 else d.bootStaged)
  else if d.host.fwStaged.isSome then (mboxAccepted, d.commitHostImage.setFw fwCommitted 0)
  else (mboxRefused, d)

/-- A deferred activation restarts at step 2 once CLEAR_100MS reads 1. -/
def Dev.activateAgain (d : Dev) : Dev :=
  if d.get fMntFwStatState = fwDeferred && d.get fMntPwrStatClear100ms = 1 && d.minuet.staged.isSome then d.bootStaged else d

/-- Roles spread over cores. -/
def rolesOn (cs : List Nat) : List Nat := (List.range 4).map fun i => cs.getD (i % max 1 cs.length) 0

/-- The commit of an activation: the old image halts, its cores become spares; at most 4 cores are in service (R380). -/
def Dev.commitImage (d : Dev) (i : Image) : Dev :=
  let old := d.coresIn coreInService
  let new := (d.coresIn coreSpare).take 4
  let d := old.foldl (fun d c => d.setCoreState c coreSpare) d
  let d := new.foldl (fun d c => d.setCoreState c coreInService) d
  let d := d.setMinuet { d.minuet with
    handover := none, staged := none, minSecurity := max d.minuet.minSecurity i.security, roles := rolesOn new }
  let d := ((d.set fMntFwStatRunning i.version).set fMntFwStatStaged 0).commitHostImage
  (d.setFw fwCommitted 0).recordChange.log 9 noneByte noneByte 0 0 0 [i.version]

/-- The slot for a handoff record: the lowest that the companion has handed over for one (R325; DESIGN CHOICE, log 129). -/
def Dev.handoffSlot (d : Dev) : Option Nat :=
  if d.xwOn then (List.range 16384).find? fun n => d.xwOffered n kindHandoff else none

/-- The handoff record as it now stands, whose layout the spec leaves open, and its length. -/
def Dev.handoffWrite (d : Dev) (n : Nat) : Nat × Dev :=
  let (len, d) := d.draw
  let (bs, d) := Dev.drawBytes (len.toNat % 4097) d
  (len.toNat % 4097, d.poke (d.xwSlot n) bs)

/-- A responsibility passes by way of the record (R393): the next step, or after the loops the commit; a flag that another writer changed
ends the handover (R326). -/
def Dev.handoffStep (d : Dev) (i : Image) (k n : Nat) : Dev :=
  if !d.xwKept n then (d.endHandover fwHandoffFailed).log 11 noneByte noneByte 0 0 0 [n]
  else
    let (len, d) := d.handoffWrite n
    if k < 8 then (d.setMinuet { d.minuet with handover := some { moved := some (k + 1), slot := some n } }).setFw fwHandingOver (k + 2)
    else (d.handoffBack (some n) len).commitImage i

/-- The next stage of a handover, which passing time brings (log 26): the new image has booted and the companion has handed over a slot for
the record; a responsibility has moved; the loops have been acknowledged. -/
def Dev.handoverTick (d : Dev) : Dev :=
  match d.minuet.handover, d.minuet.staged with
  | some h, some i =>
    match h.moved, h.slot with
    | some k, some n => d.handoffStep i k n
    | _, _ =>
      match d.handoffSlot with
      | some n =>
        let d := d.xwTake n
        (d.setMinuet { d.minuet with handover := some { moved := some 0, slot := some n } }).setFw fwHandingOver 1
      | none => d
  | _, _ => d

/-! ### Watchdogs (R382) -/

/-- Roles of a core taken by another: a spare where there is one, else the cores that remain. -/
def Dev.moveRoles (d : Dev) (c : Nat) : Dev :=
  match d.coresIn coreSpare with
  | n :: _ =>
    (d.setCoreState n coreInService).setMinuet { d.minuet with roles := d.minuet.roles.map fun r => if r = c then n else r }
  | [] =>
    match (List.range 6).filter (fun k => d.coreState k = coreInService || d.coreState k = coreRestarting) with
    | [] => d.requestPower .noMinuet
    | n :: _ => d.setMinuet { d.minuet with roles := d.minuet.roles.map fun r => if r = c then n else r }

/-- A Minuet core is WITHDRAWN, which the record keeps. -/
def Dev.withdrawCore (d : Dev) (c : Nat) : Dev :=
  (d.setCoreState c coreWithdrawn).setMinuet { d.minuet with lostCores := insertNat d.minuet.lostCores c }

/-- A watchdog expires on a core that runs an image: it is reset, its locks are released, it restarts, or at the third expiry within
10 s is withdrawn. Before its commit a handover ends. A spare without responsibilities hands none on (DESIGN CHOICE, log 120). -/
def Dev.watchdog (c : Nat) (third : Bool) (d : Dev) : Dev :=
  let st := d.coreState c
  if !(st = coreInService || (st = coreSpare && d.minuet.handover.isSome)) then d
  else
    let d := d.setMinuet { d.minuet with locks := d.minuet.locks.filter fun x => x.2 ≠ c }
    let d := (d.bump fMntCoreStatExpiries 1).log 9 noneByte noneByte 0 0 0 [c]
    let d := d.endHandover fwHandoffFailed
    if third then
      let d := (d.withdrawCore c).recordChange
      if d.minuet.roles.contains c then d.moveRoles c else d
    else if st = coreSpare then d
    else d.setCoreState c coreRestarting

/-- The LOOPS role resumes: clamps held for it release, but those a temperature holds (R385). -/
def Dev.loopsResume (d : Dev) : Dev :=
  if d.get fMntPwrStatLoopsHeld = 0 then d
  else (allSites.foldl Dev.unclampSite (d.set fMntPwrStatLoopsHeld 0)).emergency

/-- The core of the LOOPS role. -/
def Dev.loopsCore (d : Dev) : Nat := d.minuet.roles.getD 3 0

/-- A core resumes its roles. -/
def Dev.coreRestart (c : Nat) (d : Dev) : Dev :=
  if d.coreState c ≠ coreRestarting then d
  else
    let d := d.setCoreState c coreInService
    if d.loopsCore = c then d.loopsResume else d

/-- Does the LOOPS role run? -/
def Dev.loopsRun (d : Dev) : Bool := d.coreState d.loopsCore = coreInService

/-! ### The loops (R383, R384) -/

def Dev.raiseMs (d : Dev) (k : Nat) : Nat := smapGet d.minuet.raise k 0
def Dev.setRaise (d : Dev) (k n : Nat) : Dev := d.setMinuet { d.minuet with raise := smapPut d.minuet.raise k n }

/-- Does the thermal loop want tile site n slower, or a stack beside it (R383, R209)? -/
def Dev.tileHot (d : Dev) (n : Nat) : Bool :=
  d.get fMntPwrCtlTileTarget ≤ d.get fFlrSiteStatTemp n || (siteStacks n).any fun s => 100 ≤ d.get fHbmStackStatTemp s

/-- Does it let the tile's clock rise? -/
def Dev.tileCool (d : Dev) (n : Nat) : Bool :=
  d.get fMntBootStatStage = 5 && d.get fFlrSiteStatTemp n + 3 ≤ d.get fMntPwrCtlTileTarget
    && (siteStacks n).all fun s => d.get fHbmStackStatThrottle s = 0

def Dev.raiseTile (d : Dev) (n : Nat) : Dev := d.set fFlrSiteStatCoreDiv (divUp (d.get fFlrSiteStatCoreDiv n)) n
def Dev.lowerTile (d : Dev) (n : Nat) : Dev := d.set fFlrSiteStatCoreDiv (divDown (d.get fFlrSiteStatCoreDiv n)) n

/-- The thermal loop on one tile site. -/
def Dev.thermalTile (d : Dev) (n : Nat) : Dev :=
  if d.siteHeld n then (d.slowest n).setRaise n 0
  else if d.tileHot n then (d.lowerTile n).setRaise n 0
  else if d.tileCool n && d.get fMntPwrStatCapThrottle = 0 && 8 < d.get fFlrSiteStatCoreDiv n then
    (if 10 ≤ d.raiseMs n + 1 then (d.raiseTile n).setRaise n 0 else d.setRaise n (d.raiseMs n + 1))
  else d.setRaise n 0

/-- One period of the thermal loop, with the temperatures read. -/
def Dev.thermalTick (temps : List (Nat × Nat)) (d : Dev) : Dev :=
  let d := temps.foldl (fun d x => d.set fFlrSiteStatTemp x.2 x.1) d
  if !d.loopsRun then d
  else
    let d := d.loopsResume
    (d.runningTiles.foldl Dev.thermalTile d).throttledBits.clearTick

/-- CAP_THROTTLE changes: thermal notices (R395). -/
def Dev.setCap (d : Dev) (v : Nat) : Dev :=
  if d.get fMntPwrStatCapThrottle = v then d else (d.set fMntPwrStatCapThrottle v).thermalNotices

/-- Key of the power loop among the counts of milliseconds since a raise. -/
def capKey : Nat := 64

/-- The tile sites that the thermal loop lets rise. -/
def Dev.risers (d : Dev) : List Nat :=
  d.runningTiles.filter fun n => !d.siteHeld n && d.tileCool n && 8 < d.get fFlrSiteStatCoreDiv n

/-- One period of the power loop. -/
def Dev.powerTick (watts : Nat) (d : Dev) : Dev :=
  let d := d.set fMntPwrStatInputW watts
  let cap := d.get fMntPwrCtlCapW
  if !d.loopsRun then d
  else if cap < watts then ((d.runningTiles.foldl Dev.lowerTile d).setRaise capKey 0).setCap 1
  else if d.get fMntPwrStatCapThrottle = 1 && watts * 100 ≤ cap * 95 then
    if 10 ≤ d.raiseMs capKey + 1 then
      let d := (d.risers.foldl Dev.raiseTile d).setRaise capKey 0
      if d.risers = [] then d.setCap 0 else d
    else d.setRaise capKey (d.raiseMs capKey + 1)
  else d.setRaise capKey 0

/-- Two missed periods: every die's clamp holds (R385). -/
def Dev.loopsMissed (d : Dev) : Dev :=
  let dies := allSites.filter fun n => d.get fFlrSiteStatState n = siteRunning
  (dies.foldl Dev.clampSite (d.set fMntPwrStatLoopsHeld 1)).emergency

/-! ### Brake and supply (R386, R420, R422) -/

def Dev.setPins (d : Dev) (p : Pins) : Dev := d.setFloor { d.floor with pins := p }

def Dev.brake (on : Bool) (d : Dev) : Dev :=
  let d := d.setPins { d.floor.pins with brakeN := !on }
  if !d.floor.pins.resetN then d
  else
    let d := d.set fMntPwrStatBrake (if on then 1 else 0)
    (if on then d.allSlow else d).emergency

/-- Out of range (R422): MOD_PWR_OK is deasserted, every die stops, a power cycle is requested. -/
def Dev.supplyOut (qv : Nat) (d : Dev) : Dev :=
  let d := (d.set fMntPwrStatSupply qv).setPins { d.floor.pins with pwrOk := false }
  (d.emit (.pin "MOD_PWR_OK" false)).requestPower .supply

/-- A tolerated excursion: 46 to 48 V or 58 to 60 V, in quarter volts. -/
def supplyTolerated (qv : Nat) : Bool := (184 ≤ qv && qv < 192) || (232 < qv && qv ≤ 240)
def supplyInRange (qv : Nat) : Bool := 192 ≤ qv && qv ≤ 232

def Dev.supply (qv : Nat) (d : Dev) : Dev :=
  if supplyInRange qv then ((d.set fMntPwrStatSupply qv).setMinuet { d.minuet with excursion := false }).emergency
  else if supplyTolerated qv then
    ((d.set fMntPwrStatSupply qv).setMinuet { d.minuet with excursion := true }).allSlow.emergency
  else d.supplyOut qv

/-! ### Proposals answered (R406) -/

/-- The entry of a proposal ID. -/
def Dev.propEntry (d : Dev) (id : Nat) : Option Nat :=
  (List.range 32).find? fun n => d.get fCutPropValid n = 1 && d.get fCutPropId n = id

def propWaiting : Nat := 0
def propApproved : Nat := 1
def propInProgress : Nat := 2

def Dev.approve (id : Nat) (d : Dev) : Nat × Dev :=
  match d.propEntry id with
  | none => (mboxRefused, d)
  | some n =>
    if d.get fCutPropState n ≠ propWaiting then (mboxRefused, d)
    else
      let kind := d.get fCutPropKind n
      if kind = kindTile then (mboxAccepted, (d.set fCutPropState propApproved n).countPending)
      else (mboxAccepted, ((d.clearProp n).fillProps).cutin kind (d.get fCutPropSite n) (d.get fCutPropUnit n))

def Dev.decline (id : Nat) (d : Dev) : Nat × Dev :=
  match d.propEntry id with
  | none => (mboxRefused, d)
  | some n =>
    if d.get fCutPropState n ≠ propWaiting then (mboxRefused, d)
    else
      let kind := d.get fCutPropKind n
      let unit := d.get fCutPropUnit n
      let site := d.get fCutPropSite n
      let d := d.setMinuet { d.minuet with declined := d.minuet.declined ++ [(kind, site, unit, d.get fCutPropReason n)] }
      (mboxDone, ((d.clearProp n).fillProps.cutinRefused kind site unit).recordChange)

def Dev.standing (arg : Nat) (d : Dev) : Nat × Dev :=
  if 32 ≤ arg then (mboxBadArg, d) else (mboxDone, (d.set fCutStatStanding arg).recordChange)

/-! ### The other commands -/

/-- PROVIDER_NOTICE (R228, R395). -/
def Dev.providerNotice (slot slots arg : Nat) (d : Dev) : Nat × Dev :=
  let p := natBitsAt arg 0 6
  if 48 ≤ p || slots ≠ 1 then (mboxBadArg, d)
  else match d.payload slot 40 with
    | (none, d) => (mboxRefused, d)
    | (some bs, d) =>
      if !(d.get fMntNegStatEnabled p).testBit featNotice || d.partState p = partFree || !d.noticeFits p then (mboxRefused, d)
      else (mboxDone, d.notice p (wordsOf bs 5))

/-- CLEAR_REMAP (R206). -/
def Dev.clearRemap (arg : Nat) (d : Dev) : Nat × Dev :=
  let s := natBitsAt arg 0 5
  let u := natBitsAt arg 5 12
  if 24 ≤ s then (mboxBadArg, d)
  else if d.hbm.remaps.any (fun r => r.stack = s && r.reserve = u) then
    (mboxDone, (d.setHbm { d.hbm with remaps := d.hbm.remaps.filter fun r => !(r.stack = s && r.reserve = u) }).showRemaps.recordChange)
  else (mboxRefused, d)

/-- WARM_RESET: level 3 with CAUSE 5. -/
def Dev.mboxWarm (d : Dev) : Dev :=
  if d.get fMntMboxStatBusy = 1 then d else (d.mboxAnswer mboxAccepted).warmReset 5 noSite 0

/-- A write of MNT_MBOX_CMD (R388, R434): a reserved OP is answered BAD_ARG. -/
def Dev.writeMbox (v : Nat) (d : Dev) : Dev :=
  let op := natBitsAt v 0 8
  let slot := natBitsAt v 8 14
  let slots := natBitsAt v 22 14
  let arg := natBitsAt v 36 28
  if op = 0x01 then d.mbox (Dev.setBeats slot slots)
  else if op = 0x02 then d.mbox (Dev.logSlots slot slots)
  else if op = 0x03 then d.mbox (Dev.telemSlots slot slots)
  else if op = 0x10 then d.mbox (Dev.stage slot slots)
  else if op = 0x11 then d.mbox Dev.activateImage
  else if op = 0x20 then d.mbox (Dev.approve arg)
  else if op = 0x21 then d.mbox (Dev.decline arg)
  else if op = 0x22 then d.mbox (Dev.standing arg)
  else if op = 0x30 then d.mbox (Dev.providerNotice slot slots arg)
  else if op = 0x31 then d.mbox (Dev.clearRemap arg)
  else if op = 0x40 then d.mboxWarm
  else d.mbox fun d => (mboxBadArg, d)

/-! ### Feature negotiation (R395) -/

/-- Device interface: major version 1, minor 0; it requires no feature. -/
def deviceMajor : Nat := 1

def negAccepted : Nat := 1
def negRejected : Nat := 2

/-- The device's offer to a partition. -/
def Dev.offer (d : Dev) (p : Nat) : Nat := Nat.land (d.get fMntNegMaskAllow p) 7

def Dev.writeNeg (p v : Nat) (d : Dev) : Dev :=
  let d := d.setWord .mntNegDrv p 0 (regWrite .mntNegDrv false (d.word .mntNegDrv p 0) v)
  let ok := d.get fMntNegDrvMajor p = deviceMajor
    && Nat.land (d.get fMntNegDrvRequired p) (d.offer p) = d.get fMntNegDrvRequired p
  if ok then (d.set fMntNegStatResult negAccepted p).set fMntNegStatEnabled (Nat.land (d.get fMntNegDrvOffered p) (d.offer p)) p
  else (d.set fMntNegStatResult negRejected p).set fMntNegStatEnabled 0 p

end Sys2Proof.Machine
end

