-- ==== Sys2Proof/Machine/FloorOps.lean ====
section
/-! DEFINITION. The floor at work: Chassé flits and retrains (15 R350 to R352), lasers and the Promenade's schedule (R355 to R357), REF
(R361), and the test access controllers with stand-alone test (R363 to R365). -/

namespace Sys2Proof.Machine

open Sys2Proof

/-! ### Chassé -/

/-- A flit on an edge that is UP (R318, R350): the awaited one is taken, another ignored; one whose CRC fails is discarded, to be replayed,
and when its fourth replay fails the direction retrains. -/
def Dev.chasseFlit (e : Nat) (ba : Bool) (seq : Nat) (ok : Bool) (d : Dev) : Dev :=
  if d.get fFlrChsStatState e ≠ edgeUp then d
  else
    let x := d.edgeDir e ba
    if ok then (if seq = x.expect then d.setEdgeDir e ba { x with expect := (seq + 1) % 1024, replays := 0 } else d)
    else if x.replays = 4 then d.edgeRetrain e ba
    else (d.setEdgeDir e ba { x with replays := x.replays + 1 }).bump fFlrChsStatReplays 1 e

/-- The UNIT of a wire (R406). -/
def wireUnit (e : Nat) (ba : Bool) (w : Nat) : Nat := e + (if ba then 128 else 0) + 256 * w

/-- A wire cut-in under standing approval, which takes effect in the retrain that found the failure. -/
def Dev.wireCutin (d : Dev) (e : Nat) (ba : Bool) (g w : Nat) : Dev :=
  let x := d.edgeDir e ba
  let d := d.setMinuet { d.minuet with nextProposal := d.minuet.nextProposal + 1 }
  let d := ((d.log 8 (edgeEnds e).1 noneByte 0 0 0 [kindWire, wireUnit e ba w, 1]).event 3).recordChange.capChange
  d.setEdgeDir e ba { x with spared := x.spared ++ [(g, w)] }

/-- A wire fails the test of a retrain (R352). -/
def Dev.wireFails (e : Nat) (ba : Bool) (d : Dev) (w : Nat) : Dev :=
  let x := d.edgeDir e ba
  let g := if w < 1536 then w / 32 else w - 1536
  if x.removed.contains g || x.spared.contains (g, w) || x.waiting.contains (g, w) then d
  else if x.spared.any (fun y => y.1 = g) || x.waiting.any (fun y => y.1 = g) then
    (d.setEdgeDir e ba { x with
      waiting := x.waiting.filter (fun y => y.1 ≠ g), approved := x.approved.filter (· ≠ g), removed := x.removed ++ [g] }).recordChange
  else if 1536 ≤ w then (d.setEdgeDir e ba { x with spared := x.spared ++ [(g, w)] }).recordChange
  else if (d.get fCutStatStanding).testBit kindWire && !d.minuet.declined.contains (kindWire, (edgeEnds e).1, wireUnit e ba w, 1) then
    d.wireCutin e ba g w
  else (d.setEdgeDir e ba { x with waiting := x.waiting ++ [(g, w)] }).propose kindWire (edgeEnds e).1 (wireUnit e ba w) 1

/-- The spares approved since the last retrain are cut in. -/
def EdgeDir.cutApproved (x : EdgeDir) : EdgeDir :=
  { x with
    spared := x.spared ++ x.waiting.filter fun w => x.approved.contains w.1
    waiting := x.waiting.filter fun w => !x.approved.contains w.1
    approved := [] }

/-- The test of one direction, if it retrains. -/
def Dev.testDir (d : Dev) (e : Nat) (ba : Bool) (failed : List Nat) : Dev :=
  if !(d.edgeDir e ba).training then d
  else failed.foldl (Dev.wireFails e ba) (d.setEdgeDir e ba (d.edgeDir e ba).cutApproved)

/-- A tile whose edge to its bridge has fewer than 44 groups in a direction is proposed for a cut-in; an edge that goes DOWN is
reported. -/
def Dev.edgeWear (d : Dev) (e : Nat) : Dev :=
  let d := if d.edgeFit e then d else d.log 6 (edgeEnds e).1 noneByte 0 0 0 [e]
  if e % 30 < 14 && ((d.edgeDir e false).groups < 44 || (d.edgeDir e true).groups < 44) then
    d.proposeTile (d.get fFlrSiteStatLogicalTile (edgeEnds e).1) 5
  else d

/-- A retrain ends (R351, R352). -/
def Dev.retrainDone (e : Nat) (ab ba : List Nat) (d : Dev) : Dev :=
  if d.get fFlrChsStatState e ≠ edgeTraining then d
  else
    let d := (d.testDir e false ab).testDir e true ba
    ((d.edgeJoin e).bump fFlrChsStatRetrains 1 e).edgeWear e

/-- Deskew lost, Minuet's request, or a flit replayed 4 times (R351). -/
def Dev.retrainFor (e : Nat) (ba : Bool) (c : RetrainCause) (d : Dev) : Dev :=
  match c with
  | .replays => if (d.edgeDir e ba).replays < 4 then d else d.edgeRetrain e ba
  | .deskew => d.edgeRetrain e ba
  | .request => d.edgeRetrain e ba

/-! ### The Promenade -/

/-- A laser is lost (R357): its wavelength is dropped; a spare that is lost is a spare less. -/
def Dev.laserLost (bank i : Nat) (d : Dev) : Dev :=
  if !(d.get fFlrLaserStatLit bank).testBit i then d
  else
    let carries := (d.get fFlrLaserStatDataMap bank).testBit i
    let known := d.floor.laserLost.contains (bank, i)
    let d := (d.setBit fFlrLaserStatLit i false bank).setBit fFlrLaserStatDataMap i false bank
    let d := if carries || known then d else d.set fFlrLaserStatSpares (d.get fFlrLaserStatSpares bank - 1) bank
    let d := if known then d else (d.setFloor { d.floor with laserLost := d.floor.laserLost ++ [(bank, i)] }).recordChange
    let d := d.lightSites.log 6 noneByte noneByte 0 0 0 [bank, i]
    if carries then d.propose kindLaser noSite (bank + 4 * i) 1 else d

/-- The inputs of the channel schedule as they stand (R355). -/
def Dev.scheduleNow (d : Dev) : Schedule :=
  let ps := (List.range 48).filter fun p => d.partState p ≠ partFree
  { active := ps
    tiles := ps.map fun p => d.get fPrtTilesTiles p
    floorWide := [d.word .hbmFwMap 0 0, d.word .hbmFwMap 1 0]
    maps := (List.range 4).map fun q => d.get fFlrLaserStatDataMap q }

/-- A schedule is installed, once the device is past its bring-up: the Promenade is lit. -/
def Dev.installSchedule (d : Dev) : Dev :=
  if d.get fMntBootStatStage = 4 || d.get fMntBootStatStage = 5 then
    ((d.setFloor { d.floor with schedule := d.scheduleNow }).set fMntBootStatPromUp 1).lightSites
  else d

/-! ### REF (R361) -/

def Dev.refAbsent (lost : Bool) (d : Dev) : Dev := d.setFloor { d.floor with refLost := lost }

/-- What the dies held is lost with their reset. -/
def Dev.coresLost (d : Dev) : Dev :=
  { d with cores := smapMap (fun _ c => c.hardware) d.cores, rcache := [], walks := [], queues := [] }

/-- REF absent for 10 ms: every die enters reset, a power cycle is requested (R368). -/
def Dev.refExpired (d : Dev) : Dev :=
  if !d.floor.refLost then d
  else
    let dies := allSites.filter fun n => d.siteState n = siteRunning || d.siteState n = siteStandalone
    let d := dies.foldl (fun d n => d.siteDown n siteReset) d
    ((d.setHost { d.host with running := [] }).coresLost).requestPower .refLost

/-! ### Stand-alone test -/

/-- The site selected, if any. -/
def Dev.selected (d : Dev) : Option Nat :=
  let n := d.get fFlrTestCtlSelected
  if n < 69 then some n else none

/-- On the selected die. -/
def Dev.onDie (f : Nat → Dev → Dev) (d : Dev) : Dev :=
  match d.selected with
  | some n => f n d
  | none => d

def Dev.enterTest (n : Nat) (d : Dev) : Dev :=
  if d.siteState n = siteStandalone then d
  else
    let d := d.setSite n { d.site n with before := d.siteState n, loopback := 0, looping := false, wrapper := 0 }
    let d := if n < 56 && d.get fFlrSiteStatRole n = 0 then d.clearTile (d.get fFlrSiteStatLogicalTile n) else d
    ((d.siteDown n siteStandalone).set fFlrSiteStatPllLock 1 n).setNack true

/-- A die leaves stand-alone test by an ISOLATE reset for the state it came from. -/
def Dev.leaveTest (n : Nat) (d : Dev) : Dev :=
  let x := d.site n
  let d := d.setSite n { x with loopback := 0, looping := false, wrapper := 0 }
  let d := if x.before = siteRunning then d.siteUp n else d.siteDown n x.before
  d.nackEnds

/-- An ISOLATE reset (R362): of a die in stand-alone test, its return; of a tile in service, its withdrawal. -/
def Dev.isolateReset (n : Nat) (d : Dev) : Dev :=
  if d.siteState n = siteStandalone then d.leaveTest n
  else if d.servesTile n then (d.withdrawTile n).proposeTile (d.get fFlrSiteStatLogicalTile n) 6
  else d

/-! ### LOOPBACK (R365) -/

def loopKind (v : Nat) : Nat := natBitsAt v 0 2
def loopPort (v : Nat) : Nat := natBitsAt v 2 5
def loopUnit (v : Nat) : Nat := natBitsAt v 7 6

/-- Does a RUN of these fields name a loop of the die? -/
def loopValid (n v : Nat) : Bool :=
  (loopKind v = 0 && loopPort v < (siteEdges n).length && loopUnit v < 48)
    || (loopKind v = 1 && loopPort v < (if n < 56 then 2 else if n < 68 then 8 else 16) && loopUnit v < 10)

/-- The selected die's LOOPBACK register is shifted out, and its in-fields are set; RUN starts a run in stand-alone test. -/
def Dev.loopWrite (v n : Nat) (d : Dev) : Dev :=
  let x := d.site n
  let run := v.testBit 14 && loopValid n v && d.siteState n = siteStandalone
  (d.emit (.sideband sbTdo x.loopback.toNat)).setSite n { x with loopback := BitVec.ofNat 64 (v % 2 ^ 15), looping := run }

/-- A run ends: DONE and ERRORS. -/
def Dev.loopDone (errors : Nat) (d : Dev) : Dev :=
  match allSites.find? fun n => (d.site n).looping with
  | none => d
  | some n =>
    let x := d.site n
    let v := natSetBits (natSetBits x.loopback.toNat 15 1 1) 16 32 errors
    d.setSite n { x with loopback := BitVec.ofNat 64 v, looping := false }

/-! ### The test access controllers (R363, R364) -/

/-- Instruction registers of the module TAP and of the selected die's. -/
def Dev.moduleIr (d : Dev) (i : BitVec 8) : Dev := d.setPins { d.floor.pins with ir := i }
def Dev.dieIr (d : Dev) (i : BitVec 8) : Dev := d.setPins { d.floor.pins with dieIr := i }

def irBypass : BitVec 8 := 0xFF

def Dev.tdo (d : Dev) (v : Nat) : Dev := d.emit (.sideband sbTdo v)

/-- IDCODE of the module, and of a die: 0x0485_6A7F and its kin. -/
def idcodeOf (part : Nat) : Nat := part * 2 ^ 12 + 0x53F * 2 + 1
def dieIdcodeOf (n : Nat) : Nat := idcodeOf (if n < 56 then 0x4861 else if n < 68 then 0x4862 else 0x4863)

/-- SAMPLE/PRELOAD: the pins are sampled, in an order the spec leaves open, and the boundary register is loaded. -/
def Dev.sample (v : BitVec 16) (d : Dev) : Dev :=
  let (x, d) := (d.moduleIr 0x02).draw
  (d.tdo (x.toNat % 2 ^ 16)).setPins { d.floor.pins with ir := 0x02, boundary := v }

def sbPins : Nat := 4

/-- EXTEST drives the pins from the boundary register under FULL_UNLOCK, and else acts as BYPASS. -/
def Dev.extest (d : Dev) : Dev :=
  if d.get fFlrTestCtlFullUnlock = 1 then
    (d.moduleIr 0x03).emit (.sideband sbPins d.floor.pins.boundary.toNat)
  else d.moduleIr irBypass

/-- May SELECT_DIE name this site? -/
def Dev.selectable (d : Dev) (n : Nat) : Bool :=
  let st := d.siteState n
  d.get fFlrTestCtlFullUnlock = 1 || (d.get fFlrTestCtlSiteUnlock = 1 && n < 56
    && (st = siteOff || st = siteWithdrawn || st = siteFailed || (st = siteStandalone && (d.site n).before ≠ siteRunning)))

/-- Deselection: a site that was powered for the test leaves it and is powered down. -/
def Dev.deselect (d : Dev) : Dev :=
  match d.selected with
  | none => d
  | some n =>
    let d := if (d.site n).powered then
        let d := d.setSite n { d.site n with powered := false }
        if d.siteState n = siteStandalone then d.leaveTest n else d
      else d
    d.set fFlrTestCtlSelected 0xFF

/-- A die's TAP comes into series; Minuet powers a tile site that is not (R364). -/
def Dev.selectSite (n : Nat) (d : Dev) : Dev :=
  let d := if d.selected = some n then d else d.deselect
  let off := d.siteState n = siteOff || d.siteState n = siteWithdrawn || d.siteState n = siteFailed
  let d := if n < 56 && off then d.setSite n { d.site n with powered := true } else d
  (d.set fFlrTestCtlSelected n).dieIr 0x01

/-- SELECT_DIE: a site, or 0xFF to deselect; what is not allowed or reserved acts as BYPASS. -/
def Dev.selectDie (v : Nat) (d : Dev) : Dev :=
  if v < 69 && d.selectable v then (d.moduleIr 0x10).selectSite v
  else if v = 0xFF && (d.get fFlrTestCtlFullUnlock = 1 || d.get fFlrTestCtlSiteUnlock = 1) then (d.moduleIr 0x10).deselect
  else d.moduleIr irBypass

/-- BIST of the selected die. -/
def Dev.bistRun (map : BitVec 16) (n : Nat) (d : Dev) : Dev :=
  ((d.setSite n { d.site n with passMap := map }).dieIr 0x22).tdo map.toNat

/-- HBM1500, of a bridge in stand-alone test (R206): the stack's wrapper comes into series, and its data (repair resources, device
identification, answers to its test instructions, which the spec leaves to the stack) are shifted out; elsewhere it acts as BYPASS. -/
def Dev.wrapper (v : BitVec 2) (n : Nat) (d : Dev) : Dev :=
  if 56 ≤ n && n < 68 && d.siteState n = siteStandalone then
    let (x, d) := ((d.setSite n { d.site n with wrapper := v }).dieIr 0x23).draw
    d.tdo x.toNat
  else d.dieIr irBypass

/-- FLR_TEST_CTL (R364): FULL_UNLOCK changes only while every partition is FREE; clearing it lets the waiting activations proceed. -/
def Dev.writeTestCtl (v : Nat) (d : Dev) : Dev :=
  let d := d.set fFlrTestCtlSiteUnlock (natBitsAt v 0 1)
  if (List.range 48).any fun p => d.partState p ≠ partFree then d
  else
    let was := d.get fFlrTestCtlFullUnlock
    let d := d.set fFlrTestCtlFullUnlock (natBitsAt v 1 1)
    if was = 1 && !v.testBit 1 then d.activateWaiting else d

end Sys2Proof.Machine
end

