-- ==== Sys2Proof/Machine/BringOps.lean ====
section
/-! DEFINITION. Bring-up, promotion to full service (18 R397 to R403), tile cut-ins and wear monitors (R405 to R408), and the I3C
target (20 R430). -/

namespace Sys2Proof.Machine

open Sys2Proof

/-! ### Resets at the pins (R397, R427, R428) -/

/-- The supply reaches its valid range: MOD_PWR_OK is asserted, every die is in POWER reset. -/
def Dev.powerUp (d : Dev) : Dev :=
  let d := d.hardReset kindPower
  if d.floor.pins.pwrOk then d
  else (d.setPins { d.floor.pins with pwrOk := true }).emit (.pin "MOD_PWR_OK" true)

/-- MOD_RESET_N is asserted. -/
def Dev.resetPin (d : Dev) : Dev :=
  let d := d.hardReset kindModule
  d.setPins { d.floor.pins with resetN := false }

/-! ### Leaving reset (R397, R398) -/

def stageWalk : Nat := 4
def stageFull : Nat := 5
def stageRecord : Nat := 6
def stageImage : Nat := 7
def stageDie : Nat := 8

/-- Bring-up stops: level 4 follows. -/
def Dev.bringStops (d : Dev) (stage : Nat) : Dev := (d.set fMntBootStatStage stage).requestPower .noWalkThrough

/-- The identity key, derived at POWER and MODULE resets (R396): the public key's bytes, x before y, each big-endian. -/
def Dev.identity (d : Dev) (b : BringUp) : Dev :=
  if d.get fMntResetCauseKind = kindWarm then d
  else if !b.idOk then d.set fMntIdStatIdValid 0
  else
    let bs := (leBytes 96 b.pubkey.toNat).reverse
    let d := (List.range 12).foldl (fun d i => d.setWord .mntIdPubkey i 0 (leNat ((bs.drop (8 * i)).take 8))) d
    d.set fMntIdStatIdValid 1

/-- The lasers of a bank as the record keeps them (R404): 8 wavelengths and the spares cut in carry data. -/
def Dev.lightBank (d : Dev) (q : Nat) : Dev :=
  let lost (i : Nat) : Bool := d.floor.laserLost.contains (q, i)
  let cuts := smapGet d.floor.laserCuts q []
  let spares := [8, 9].filter fun i => !lost i && !cuts.contains i
  let data := ((List.range 8) ++ cuts).filter fun i => !lost i
  let bits (l : List Nat) : Nat := (l.map (2 ^ ·)).sum
  let d := (d.set fFlrLaserStatLit (bits ((List.range 10).filter fun i => !lost i)) q).set fFlrLaserStatDataMap (bits data) q
  d.set fFlrLaserStatSpares spares.length q

/-- A tile site comes out of reset at CORE / 16, or fails (R398). Spare, WITHDRAWN and FAILED sites stay as they are. -/
def Dev.bringTile (b : BringUp) (d : Dev) (n : Nat) : Dev :=
  if d.get fFlrSiteStatRole n ≠ 0 || d.siteState n ≠ siteOff then d
  else if b.failedSites.getLsbD n then d.set fFlrSiteStatState siteFailed n
  else (d.siteUp n).set fFlrSiteStatCoreDiv 16 n

/-- Bring-up to walk-through: dies out of reset, the Ulitum Link training, the Capability Table written. -/
def Dev.bringWalk (b : BringUp) (d : Dev) : Dev :=
  let d := (68 :: (List.range 12).map (56 + ·)).foldl Dev.siteUp d
  let d := (List.range 4).foldl Dev.lightBank d
  let ns := (List.range 56).filter fun n => d.get fFlrSiteStatRole n = 0 && d.siteState n = siteOff && b.failedSites.getLsbD n
  let d := (List.range 56).foldl (Dev.bringTile b) (if ns = [] then d else d.recordChange)
  let d := (d.set fUlkStatState 1).set fMntBootStatWalkMs b.walkMs.toNat
  let d := (d.set fMntBootStatStage stageWalk).capChange
  if d.floor.pins.brakeN then d else Dev.brake true d

/-- The Minuet cores that the record does not hold WITHDRAWN. With none left the power cycle is requested (R382; DEDUCED, log 133). -/
def Dev.fitCores (d : Dev) : List Nat := (List.range 6).filter fun c => !d.minuet.lostCores.contains c

/-- Minuet starts on the cores that the record places in service, at most 4 (R380, R397). -/
def Dev.placeCores (d : Dev) : Dev :=
  if d.minuet.lostCores = [] then d
  else
    let fit := d.fitCores
    let d := d.minuet.lostCores.foldl (fun d c => d.setCoreState c coreWithdrawn) d
    let d := (fit.take 4).foldl (fun d c => d.setCoreState c coreInService) d
    let d := (fit.drop 4).foldl (fun d c => d.setCoreState c coreSpare) d
    d.setMinuet { d.minuet with roles := rolesOn (fit.take 4) }

/-- Reset release (R397): with the supply in range and REF present the device comes up, or stops where it fails; without a Minuet core
level 4 follows (R368). -/
def Dev.release (b : BringUp) (d : Dev) : Dev :=
  let d := Dev.refAbsent (!b.refPresent) (d.setPins { d.floor.pins with resetN := true })
  if d.get fMntBootStatStage ≠ 0 || !d.floor.pins.pwrOk || !b.refPresent then d
  else if !b.imageOk then d.bringStops stageImage
  else if !b.recordOk then d.bringStops stageRecord
  else if d.fitCores = [] then (d.identity b).showRecord.requestPower .noMinuet
  else if !b.diesOk then (d.identity b).showRecord.placeCores.bringStops stageDie
  else (d.identity b).showRecord.placeCores.bringWalk b

/-! ### Promotion (R402, R403) -/

/-- Has a stack finished its retrain? -/
def Dev.stackDone (d : Dev) (k : Nat) : Bool := (d.get fMntBootStatStacksFull).testBit k || d.hbm.slow.contains k

/-- A stack is retrained at 8 Gb/s, or stays at 4 Gb/s and is reported. -/
def Dev.stackTrained (k : Nat) (ok : Bool) (d : Dev) : Dev :=
  if d.get fMntBootStatStage ≠ stageWalk || d.stackDone k then d
  else if ok then d.set fMntBootStatStacksFull (d.get fMntBootStatStacksFull + 2 ^ k)
  else (d.setHbm { d.hbm with slow := insertNat d.hbm.slow k }).log 8 (56 + stackBridge k) noneByte 0 0 0 [k]

/-- May the device enter full service? -/
def Dev.fullReady (d : Dev) : Bool :=
  d.get fMntBootStatStage = stageWalk && (List.range 24).all d.stackDone && d.get fMntBootStatPromUp = 1
    && (List.range 16).all d.reel.settled.contains

/-- The promotion point of a partition. -/
def Dev.promote (d : Dev) (p : Nat) : Dev :=
  if d.partState p = partFree then d
  else d.setWord .prtService p 0 (1 + (d.part p).cycles.toNat % 2 ^ 56 * 2 ^ 8)

/-- A tile's clock rises from walk-through unless a clamp, brake or throttle holds it. -/
def Dev.fastTile (d : Dev) (n : Nat) : Dev :=
  if d.siteHeld n || d.get fMntPwrStatCapThrottle = 1 || (siteStacks n).any (fun s => d.get fHbmStackStatThrottle s = 1) then d
  else d.set fFlrSiteStatCoreDiv 8 n

/-- A cut-in is proposed for a logical tile without a site that runs (R398). -/
def Dev.proposeLost (d : Dev) (t : Nat) : Dev :=
  match d.siteOf t with
  | some n => if d.siteState n = siteFailed || d.siteState n = siteWithdrawn then d.proposeTile t 6 else d
  | none => d

/-- Full service begins. -/
def Dev.fullService (ms : Nat) (d : Dev) : Dev :=
  if !d.fullReady then d
  else
    let d := (d.set fMntBootStatStage stageFull).set fMntBootStatFullMs ms
    let d := d.nackEnds
    let d := d.runningTiles.foldl Dev.fastTile d
    let d := ((List.range 48).foldl Dev.promote d).throttledBits.capChange
    (List.range 48).foldl Dev.proposeLost d

/-! ### Tile cut-ins (R407, R408) -/

/-- The entry of a tile's approved proposal. -/
def Dev.cutinEntry (d : Dev) (t : Nat) : Option Nat :=
  (List.range 32).find? fun n => d.get fCutPropValid n = 1 && d.get fCutPropKind n = kindTile && d.get fCutPropUnit n = t
    && d.get fCutPropState n = propApproved

/-- The spare site of a quadrant with the lowest site ID. -/
def Dev.spareSite (d : Dev) (q : Nat) : Option Nat :=
  ((List.range 14).map (14 * q + ·)).find? fun n => d.get fFlrSiteStatRole n = 1 && d.siteState n = siteOff
    && !d.floor.retired.contains n && !(d.site n).powered

/-- Proposals of other kinds for a site are withdrawn. -/
def Dev.withdrawProps (d : Dev) (n : Nat) : Dev :=
  let d := d.setMinuet { d.minuet with proposals := d.minuet.proposals.filter fun p => p.kind = kindTile || p.site ≠ n }
  let es := (List.range 32).filter fun e => d.get fCutPropValid e = 1 && d.get fCutPropSite e = n && d.get fCutPropKind e ≠ kindTile
  es.foldl (fun d e => (d.clearProp e).fillProps) d

def Dev.tileNotice (d : Dev) (t : Nat) : Dev :=
  match d.tilePart t with
  | some p => d.ownNotice p featCutin
  | none => d

/-- Step 1: the before-notice; the spare site is powered, loads its trims in a cut-in beat of its bridge, without one left it waits (R301), and
is trained. One cut-in at a time in a quadrant. -/
def Dev.cutinStart (d : Dev) (t e : Nat) : Dev :=
  if d.minuet.tileCutins.any fun x => x.tile / 12 = t / 12 then d
  else match d.spareSite (t / 12) with
    | none => (d.clearProp e).fillProps
    | some n => match d.spend (calibrator n) actCutin (beatLines (calibrator n)) with
      | none => d
      | some d =>
        let d := match d.siteOf t with
          | some old => d.withdrawProps old
          | none => d
        let d := ((d.set fCutPropState propInProgress e).tileNotice t).siteDown n siteReset
        let d := d.set fFlrSiteStatPllLock 1 n
        d.setMinuet { d.minuet with tileCutins := d.minuet.tileCutins ++ [{ tile := t, site := n, entry := e, stopped := false }] }

/-- Step 2, once no command that is not restartable holds the tile: grants stop, commands with a troupe there are killed. -/
def Dev.cutinStop (d : Dev) (x : TileCutin) : Dev :=
  if (d.tileHolders x.tile).any fun c => !c.2.restartable then d
  else
    let ys := d.minuet.tileCutins.map fun y => if y.tile = x.tile then { y with stopped := true } else y
    (d.setMinuet { d.minuet with tileCutins := ys }).killTile .cutin x.tile

/-- The old site of a tile is reset and loses its power, for good. -/
def Dev.leaveSite (d : Dev) (n : Nat) : Dev :=
  let d := d.isolate n siteWithdrawn
  let d := (d.set fFlrSiteStatRole 1 n).set fFlrSiteStatLogicalTile 63 n
  (d.set fFlrSiteStatCoreDiv 0 n).retire n

/-- The tile moves to its new site, with the new die's cores. -/
def Dev.takeSite (d : Dev) (t n : Nat) : Dev :=
  let d := (d.set fFlrSiteStatRole 0 n).set fFlrSiteStatLogicalTile t n
  let d := (tileCores t).foldl (fun d k => d.setCore k Core.built) d
  ((d.siteUp n).set fFlrSiteStatCoreDiv 16 n).fastTile n

/-- Steps 3 to 5, once no command holds the tile. -/
def Dev.cutinCommit (d : Dev) (t : Nat) : Dev :=
  match d.minuet.tileCutins.find? fun x => x.tile = t && x.stopped with
  | none => d
  | some x =>
    if d.tileHolders t ≠ [] then d
    else
      let d := d.recordChange
      let d := match d.siteOf t with
        | some old => d.leaveSite old
        | none => d
      let d := ((d.takeSite t x.site).spareGone x.site).installSchedule
      let d := d.setMinuet { d.minuet with tileCutins := d.minuet.tileCutins.filter fun y => y.tile ≠ t }
      ((d.throttledBits.capChange.tileNotice t).clearProp x.entry).fillProps

/-- A tile cut-in goes as far as it can: its start; then the end of grants and, once the tile is empty, the rest. -/
def Dev.tileCut (t : Nat) (d : Dev) : Dev :=
  if d.get fMntBootStatStage ≠ stageFull then d
  else match d.minuet.tileCutins.find? fun x => x.tile = t with
    | some x => (if x.stopped then d else d.cutinStop x).cutinCommit t
    | none => match d.cutinEntry t with
      | some e => d.cutinStart t e
      | none => d

/-! ### Wear monitors (R405) -/

def reasonRate : Nat := 2
def reasonAge : Nat := 3
def reasonLaser : Nat := 4

/-- A laser below its wear threshold (R357). -/
def Dev.laserWeak (d : Dev) (bank i : Nat) : Dev :=
  if bank < 4 && i < 10 then
    let d := d.setBit fFlrLaserStatWeak i true bank
    if (d.get fFlrLaserStatDataMap bank).testBit i then d.propose kindLaser noSite (bank + 4 * i) reasonLaser else d
  else d

/-- What a monitor finds: a tile that ages or whose SRAM errors pass CUT_WEAR_CTL, a host core whose corrected errors do, a weak
laser. The other kinds are raised where their faults are found. -/
def Dev.wear (f : WearFinding) (d : Dev) : Dev :=
  let u := f.unit.toNat
  let r := f.reason.toNat
  if f.kind.toNat = kindTile && (r = reasonRate || r = reasonAge) then d.proposeTile u r
  else if f.kind.toNat = kindHost && r = reasonRate && u < 96 then d.propose kindHost noSite u r
  else if f.kind.toNat = kindLaser && r = reasonLaser then d.laserWeak (natBitsAt u 0 2) (natBitsAt u 2 4)
  else d

/-! ### I3C (R430) -/

def powerFlags : Option PowerCause → Nat
  | some .refLost => 8
  | some .supply => 16
  | some .noMinuet => 32
  | _ => 0

def Dev.i3cState (d : Dev) : Nat :=
  let s := d.get fMntBootStatStage
  if d.minuet.powerCycle ≠ none then 4
  else if s = 0 then 0 else if s = stageWalk then 2 else if s = stageFull then 3 else 1

def Dev.i3cFlags (d : Dev) : Nat :=
  let clamp := allSites.any (fun n => d.get fFlrSiteStatClamp n = 1) || (List.range 24).any fun s => d.get fHbmStackStatClamp s = 1
  d.get fMntPwrStatEmergency + 2 * d.get fMntPwrStatBrake + (if clamp then 4 else 0) + powerFlags d.minuet.powerCycle

/-- The status block, with the cold plate's temperature. -/
def Dev.i3cBlock (d : Dev) (plate : Nat) : List Byte :=
  let hot := (allSites.map fun n => d.get fFlrSiteStatTemp n).foldl max 0
  let hbm := ((List.range 24).map fun s => d.get fHbmStackStatTemp s).foldl max 0
  leBytes 1 d.i3cState ++ leBytes 1 d.i3cFlags ++ leBytes 2 (d.get fMntPwrStatInputW) ++ leBytes 1 (d.get fMntPwrStatSupply)
    ++ leBytes 1 hot ++ leBytes 1 hbm ++ leBytes 1 plate ++ leBytes 1 (if d.variantB then 1 else 0) ++ List.replicate 7 0

/-- A private read, answered at the dynamic address unless MOD_RESET_N is asserted; no state holds the plate's sensor. -/
def Dev.i3cRead (d : Dev) : Dev :=
  if !d.floor.pins.resetN || d.floor.pins.i3cAddr.isNone then d
  else
    let (x, d) := d.draw
    d.emit (.sideband sbRead (leNat (d.i3cBlock (x.toNat % 256))))

/-- The target takes a dynamic address if it has none. -/
def Dev.i3cAssign (addr : BitVec 7) (d : Dev) : Dev :=
  if !d.floor.pins.resetN || d.floor.pins.i3cAddr.isSome then d
  else (d.setPins { d.floor.pins with i3cAddr := some addr.toNat }).emit (.sideband sbAddr addr.toNat)

end Sys2Proof.Machine
end

