-- ==== Sys2Proof/Machine/BringUp.lean ====
section
/-! DEFINITION. The meanings of resets and bring-up, promotion, tile cut-ins, wear monitors and the I3C target (15 R362, 18, 20). -/

namespace Sys2Proof.Machine

open Sys2Proof

/-- POWER_RESET (R362, R427). -/
def execPowerReset (s : State) : Out := s.always Dev.powerUp

/-- MODULE_RESET (R362, R428). -/
def execModuleReset (s : State) : Out := s.always Dev.resetPin

/-- RESET_RELEASE (R397, R398). -/
def execResetRelease (b : BringUp) (s : State) : Out := s.always (Dev.release b)

/-- STACK_RETRAIN (R402). -/
def execStackRetrain (k : Fin 24) (ok : Bool) (s : State) : Out := s.live (Dev.stackTrained k.val ok)

/-- FULL_SERVICE_ENTRY (R403). -/
def execFullServiceEntry (ms : BitVec 16) (s : State) : Out := s.live (Dev.fullService ms.toNat)

/-- TILE_CUTIN (R407). -/
def execTileCutin (t : Fin 48) (s : State) : Out := s.live (Dev.tileCut t.val)

/-- WEAR_MONITOR (R405). -/
def execWearMonitor (f : WearFinding) (s : State) : Out := s.live (Dev.wear f)

/-- I3C_PRIVATE_READ (R430). -/
def execI3cPrivateRead (s : State) : Out := s.always Dev.i3cRead

/-- ENTDAA (R430). -/
def execEntdaa (addr : BitVec 7) (s : State) : Out := s.always (Dev.i3cAssign addr)

/-- SETDASA, to the static address 0x3A (R430). -/
def execSetdasa (addr : BitVec 7) (s : State) : Out := s.always (Dev.i3cAssign addr)

end Sys2Proof.Machine
end

