-- ==== Sys2Proof/Machine/Caller.lean ====
section
/-! DEFINITION. The commands of the queues and the Caller's own steps (10, 11). -/

namespace Sys2Proof.Machine

open Sys2Proof

/-! ### Commands at work -/

/-- KERNEL (R253): on every granted unit that stands idle the launch's next troupe starts. -/
def Dev.kernelRun (q slot : Nat) (d : Dev) : Dev :=
  let d := d.reapTroupes q slot
  match d.runs? q slot with
  | none => d
  | some c =>
    match c.body with
    | .kernel j =>
      j.units.foldl (fun d u =>
        match d.runs? q slot with
        | none => d
        | some c =>
          match c.body with
          | .kernel j =>
            if j.next < j.troupes && u.all (fun k => (d.core k).run.isNone && (d.core k).takesGroups && d.tileUp (k / 16)) then
              d.startTroupe q c j u Dev.flushNear
            else d
          | _ => d) d
    | _ => d

def execKernel (q : Fin 16384) (slot : W32) (s : State) : Out := s.live (Dev.kernelRun q.val slot.toNat)

/-- COPY (R254, R435). -/
def execCopy (q : Fin 16384) (slot : W32) (s : State) : Out := s.live (Dev.moveRun q.val slot.toNat false)

/-- FILL (R254, R435). -/
def execFill (q : Fin 16384) (slot : W32) (s : State) : Out := s.live (Dev.moveRun q.val slot.toNat true)

/-- WAIT (R257, R274): its fence is looked at; once released and granted, it passes through RUNNING at once. -/
def Dev.waitRun (q slot : Nat) (d : Dev) : Dev :=
  match d.cmd? q slot with
  | none => d
  | some c =>
    match c.body with
    | .wait _ _ _ =>
      if c.st = .waiting && c.sent = none then d.decideWait q c
      else if c.st = .running then d.finishWork q slot Dev.flushNear
      else d
    | _ => d

def execWait (q : Fin 16384) (slot : W32) (s : State) : Out := s.live (Dev.waitRun q.val slot.toNat)

/-- SIGNAL (R255): its signal is made at its commit. -/
def Dev.signalRun (q slot : Nat) (d : Dev) : Dev :=
  match d.cmd? q slot with
  | none => d
  | some c =>
    match c.body with
    | .signal _ _ _ => d.finishWork q slot Dev.flushNear
    | _ => d

def execSignal (q : Fin 16384) (slot : W32) (s : State) : Out := s.live (Dev.signalRun q.val slot.toNat)

/-- RANGE.SYNC (R221, R222). -/
def execRangeSync (q : Fin 16384) (slot : W32) (s : State) : Out := s.live (Dev.rangeSyncRun q.val slot.toNat)

/-- MARKER (R255). -/
def execMarker (q : Fin 16384) (slot : W32) (s : State) : Out := s.live (Dev.markerRun q.val slot.toNat)

/-! ### CLR_QCTL and doorbells -/

/-- CREATE (R243, R244). -/
def execCreate (p : Fin 48) (q : BitVec 14) (s : State) : Out := s.live (Dev.qctlCreate p.val q.toNat)

/-- DESTROY (R266). -/
def execDestroy (p : Fin 48) (q : BitVec 14) (s : State) : Out := s.live (Dev.qctlDestroy p.val q.toNat)

/-- ABORT (R244, R283). -/
def execAbort (p : Fin 48) (q : BitVec 14) (slot : W32) (s : State) : Out := s.live (Dev.qctlAbort p.val q.toNat slot.toNat)

/-- CLR_DB_TAIL_WRITE (R238, R247). -/
def execClrDbTailWrite (src : Source) (q : Fin 16384) (tail : W32) (s : State) : Out :=
  s.live fun d => d.writeDoorbell src q.val 0 tail.toNat

/-- RESUME (R246, R261). -/
def execResume (src : Source) (q : Fin 16384) (s : State) : Out := s.live fun d => d.writeDoorbell src q.val 24 1

/-! ### From the ring to the engines -/

/-- SLOT_READ (R249). -/
def execSlotRead (q : Fin 16384) (s : State) : Out := s.live (Dev.readSlot q.val)

/-- COMMAND_DISPATCH (R242, R256 to R258). -/
def execCommandDispatch (q : Fin 16384) (slot : W32) (s : State) : Out := s.live (Dev.dispatchCmd q.val slot.toNat)

/-- Has a logical tile no site that works (R370, R398)? -/
def Dev.tileDead (d : Dev) (t : Nat) : Bool :=
  match d.siteOf t with
  | some n => d.siteState n = siteWithdrawn || d.siteState n = siteFailed
  | none => true

/-- May a cut-in restore what a partition lost: one is proposed, or full service, which proposes them (R398), is still to come? -/
def Dev.mayRestore (d : Dev) (p : Nat) : Bool :=
  (List.range 32).any (fun n => d.get fCutPropValid n = 1 && d.get fCutPropPartition n = p)
    || d.minuet.proposals.any (fun x => x.part = p) || d.get fMntBootStatStage ≠ 5

/-- No unit, and no copy engine, that a READY command may use is left, and no cut-in would restore one: it ends with DEVICE_LOST
(R369, R406). -/
def Dev.stranded (d : Dev) (q : Nat) (c : Cmd) : Bool :=
  c.st = .ready && !d.mayRestore (d.queue q).part && c.onTiles
    && (d.engineSets q c).all fun s => s.any fun e => match e.tile? with
        | some t => d.tileDead t
        | none => false

/-- ENGINE_GRANT (R262). -/
def execEngineGrant (q : Fin 16384) (slot : W32) (s : State) : Out :=
  s.live fun d =>
    match d.cmd? q.val slot.toNat with
    | none => d
    | some c =>
      if d.stranded q.val c then d.endCmd q.val slot.toNat errDeviceLost
      else Dev.grant q.val slot.toNat d

/-- PREEMPTION_KILL (R297). -/
def execPreemptionKill (q : Fin 16384) (slot : W32) (s : State) : Out := s.live (Dev.preempt q.val slot.toNat)

/-- SLICE_EXPIRY (R299). -/
def execSliceExpiry (q : Fin 16384) (slot : W32) (s : State) : Out := s.live (Dev.slice q.val slot.toNat)

/-! ### Timeouts and acknowledgements -/

/-- EXEC_TIMEOUT_EXPIRY (R263, R264 step 1): drain orders, and the kill for the arbiter. -/
def Dev.execTimeout (q slot : Nat) (d : Dev) : Dev :=
  match d.cmd? q slot with
  | none => d
  | some c =>
    if (d.queue q).execTimeout = 0 || !(c.st = .running || c.st = .committing) then d
    else (d.order q slot .drain).sendKill q slot (.ends errExecTimeout)

def execExecTimeoutExpiry (q : Fin 16384) (slot : W32) (s : State) : Out := s.live (Dev.execTimeout q.val slot.toNat)

/-- DRAIN_ACK_TIMEOUT (R264 step 2): an engine silent after its drain order gets a kill. -/
def Dev.drainTimeout (q slot i : Nat) (d : Dev) : Dev :=
  match d.cmd? q slot with
  | none => d
  | some c =>
    match c.engines[i]? with
    | none => d
    | some e =>
      if e.order = .drain && !e.acked then d.putCmd q { c with engines := c.engines.set i { e with order := .kill } } else d

def execDrainAckTimeout (q : Fin 16384) (slot : W32) (engine : Nat) (s : State) : Out :=
  s.live (Dev.drainTimeout q.val slot.toNat engine)

/-- The site a silent engine names in PRT_REINIT_STAT (R374): its tile's; 63 without one. -/
def Dev.engineSite (d : Dev) : Engine → Nat
  | .core k => (d.siteOf (k / 16)).getD 63
  | .channel t _ => (d.siteOf t).getD 63
  | _ => 63

/-- KILL_ACK_TIMEOUT (R264, R266, R283): an engine that acknowledges no order escalates to re-initialisation of the partition. Its cause is
4 for an ABORT, a DESTROY and a destroy of a dissolution (R293, R374). -/
def Dev.killTimeout (q slot i : Nat) (d : Dev) : Dev :=
  match d.cmd? q slot with
  | none => d
  | some c =>
    match c.engines[i]? with
    | none => d
    | some e =>
      if e.order = .none || e.acked then d
      else
        let p := (d.queue q).part
        let mine : Bool := match (d.part p).qop with
          | some (.create _) => false
          | some (.destroy q') => q' = q
          | some (.abort q' s' _) => q' = q && s' = slot
          | none => false
        d.startReinit p (if mine || d.partState p = partDissolving then reinitEscalated else reinitSilent) (d.engineSite e.eng) []

def execKillAckTimeout (q : Fin 16384) (slot : W32) (engine : Nat) (s : State) : Out :=
  s.live (Dev.killTimeout q.val slot.toNat engine)

/-- ENGINE_ACK (R264). -/
def execEngineAck (q : Fin 16384) (slot : W32) (engine : Nat) (s : State) : Out :=
  s.live fun d => d.ackEngine q.val slot.toNat engine

/-- WAIT_TIMEOUT_EXPIRY (R263, R264): the command in WAITING has no engine, so its kill ends it as it arrives. -/
def Dev.waitTimeout (q slot : Nat) (d : Dev) : Dev :=
  match d.cmd? q slot with
  | none => d
  | some c =>
    if (d.queue q).waitTimeout = 0 || c.st ≠ .waiting then d
    else (d.sendKill q slot (.ends errWaitTimeout)).killArrives q slot

def execWaitTimeoutExpiry (q : Fin 16384) (slot : W32) (s : State) : Out := s.live (Dev.waitTimeout q.val slot.toNat)

/-! ### Commit -/

/-- WORK_FINISHED (R157, R279 steps 1 to 3). -/
def execWorkFinished (q : Fin 16384) (slot : W32) (s : State) : Out :=
  s.live (Dev.finishWork q.val slot.toNat Dev.flushNear)

/-- COMMIT_REQUEST (R279 steps 4 to 7). -/
def execCommitRequest (q : Fin 16384) (slot : W32) (s : State) : Out := s.live (Dev.commitRequest q.val slot.toNat)

/-- KILL_AT_ARBITER (R279, R280, R283): the kill in flight; with none, an ABORT that comes behind another kill of its command or after
its command has left the queue. -/
def execKillAtArbiter (q : Fin 16384) (slot : W32) (s : State) : Out :=
  s.live fun d =>
    match (d.cmd? q.val slot.toNat).bind Cmd.sent with
    | none => d.abortArrives q.val slot.toNat
    | some _ => d.killArrives q.val slot.toNat

/-! ### Fences -/

/-- FENCE_SIGNAL (R270, R272): the partition's oldest signal reaches its fence, unless the line or the token it needs is to be waited for. -/
def execFenceSignal (p : Fin 48) (s : State) : Out :=
  s.live fun d =>
    match (d.part p.val).signals with
    | [] => d
    | op :: rest => ((d.setPart p.val { d.part p.val with signals := rest }).deliverFence p.val op).getD d

/-- FENCE_ERROR_STORE (R270, R271): the partition's oldest error store reaches its fence; with a post, CLR_FENCE_POST is DONE (R278). -/
def execFenceErrorStore (p : Fin 48) (s : State) : Out :=
  s.live fun d =>
    match (d.part p.val).errors with
    | [] => d
    | op :: rest =>
      match (d.setPart p.val { d.part p.val with errors := rest }).deliverFence p.val op with
      | none => d
      | some d => if op.posted then d.postDone p.val 0 else d

/-- A re-read of a fence's line, for its token (R265, R306). -/
def Dev.rereadFence (d : Dev) (q : Nat) (c : Cmd) : Option Dev :=
  match c.body with
  | .wait _ (.local_ pa) _ => (d.pocRead (d.callerRq (d.queue q).part (d.queue q).ctx) (pa / 64)).map (·.2)
  | _ => some d

/-- A look at the fence of a command in WAITING that holds a watch entry, or without one re-reads it (R265, R274). -/
def Dev.lookAgain (q slot : Nat) (watched : Bool) (d : Dev) : Dev :=
  match d.cmd? q slot with
  | none => d
  | some c =>
    if c.st = .waiting && c.sent = none && c.watch = watched then
      match (if watched then some d else d.rereadFence q c) with
      | none => d
      | some d => d.decideWait q c
    else d

/-- WAIT_RELEASE (R274, R275). -/
def execWaitRelease (q : Fin 16384) (slot : W32) (s : State) : Out := s.live (Dev.lookAgain q.val slot.toNat true)

/-- FENCE_REREAD (R265, R274). -/
def execFenceReread (q : Fin 16384) (slot : W32) (s : State) : Out := s.live (Dev.lookAgain q.val slot.toNat false)

/-- CLR_FENCE_POST (R278). -/
def execClrFencePost (p : Fin 48) (ctx : BitVec 12) (code : BitVec 16) (s : State) : Out :=
  s.live (Dev.fencePost p.val ctx.toNat code.toNat)

/-- CLR_Q_RANGE_WRITE (R237). -/
def execClrQRangeWrite (p : Fin 48) (contexts : Bool) (v : W64) (s : State) : Out :=
  s.live (Dev.writeBlock p.val contexts v.toNat)

end Sys2Proof.Machine
end

