-- ==== Sys2Proof/Machine/MemOps.lean ====
section
/-! DEFINITION. What the memory instructions share (03 R76 to R81, 06): decode checks, addresses and the checks before
translation, translation of every thread, and loads, stores and atomics thread by thread. Where a request must wait for
tokens or for a line, the threads served so far are done and the group tries the others again (log 20). -/

namespace Sys2Proof.Machine

open Sys2Proof

/-! ### Decode checks -/

/-- Registers of an access of a size code. -/
def memRegs (o : MemOp) : List Nat :=
  let n := if o.size = 3 then 2 else if o.size = 4 then 4 else 1
  (List.range n).map (o.vr.toNat + ·)

/-- The data register's rules (R61): a pair even, a quadruple a multiple of 4, all below V. -/
def memDataBad (v : Nat) (o : MemOp) : Bool :=
  o.vr.toNat % (memRegs o).length ≠ 0 || o.vr.toNat + (memRegs o).length > v

/-- Address mode 3 is reserved; the offset register is below V. -/
def memAddrBad (v : Nat) (o : MemOp) : Bool := o.am = 3 || (o.am = 2 && o.vx.toNat ≥ v)

def memVx (o : MemOp) : List Nat := if o.am = 2 then [o.vx.toNat] else []

/-- The decode checks of a load or store (R77). -/
def memBad (sem : Nat) (o : MemOp) (r : Run) : Bool :=
  o.sem.toNat ≠ sem || o.size.toNat > 4 || memDataBad r.hdr.vregs o || memAddrBad r.hdr.vregs o

/-- A store's STAT needs an access of at least one element (R77). -/
def statBad (o : MemOp) : Bool :=
  let st := o.fn.toNat % 4
  (st = 1 && o.size.toNat < 2) || (st ≥ 2 && o.size.toNat < 1)

/-- The decode checks of an atomic (R77, R78). -/
def atomBad (o : MemOp) (r : Run) (scratch : Bool) : Bool :=
  let aop := o.fn.toNat % 16
  let w := if o.size = 3 then 2 else 1
  !(o.size = 2 || o.size = 3) || aop > 10
    || (if scratch then o.sem ≠ 0 else !(o.sem = 0 || o.sem = 2 || o.sem = 3 || o.sem = 4))
    || memAddrBad r.hdr.vregs o
    || (if aop = 10 then o.vr.toNat % (2 * w) ≠ 0 || o.vr.toNat + 2 * w > r.hdr.vregs else memDataBad r.hdr.vregs o)

/-- Scopes that act on the near cache: S3 to S7 (R156). -/
def scopeNear (o : MemOp) : Bool := o.scope.toNat ≥ 3

/-! ### Before translation -/

/-- The requests of a core for its context. -/
def Run.rq (r : Run) (k : Nat) : Rq := { part := r.part, ctx := some r.ctx, quad := some (k / 16 / 12), num := k }

def Run.stream (r : Run) (k : Nat) : Stream := { tile := k / 16, part := r.part, ctx := r.ctx, q := r.q, slot := r.slot }

/-- The lowest code among the failures of all threads (R76, R81): bits [63:57], alignment, and for a write the declared
outputs. -/
def Dev.precheck (d : Dev) (r : Run) (write : Bool) (align n : Nat) (as : List Nat) : Option Nat :=
  if as.any (fun a => 2 ^ 57 ≤ a || a % align ≠ 0) then some errRange
  else if write && !(match d.cmd? r.q r.slot with
      | some c => as.all fun a => c.declares a n
      | none => false) then some errOutside
  else none

/-! ### Translation of every thread -/

/-- Translations by thread, and the first page that is missing: every page missed begins its walk, which the group or lead thread waits
for as one stream (R223). -/
def Dev.lookupThreads (w : Who) (r : Run) (a : Access) : List (Nat × Nat) → Dev → SMap Xent × Option Nat × Dev
  | [], d => ([], none, d)
  | (t, va) :: rest, d =>
    match d.coreLookup w.core.val r.ctx (va / 4096) a with
    | (some x, d) =>
      let (m, miss, d) := Dev.lookupThreads w r a rest d
      ((t, x) :: m, miss, d)
    | (none, d) =>
      let d := d.miss (w.core.val / 16) r.ctx (va / 4096)
        { q := r.q, slot := r.slot, slotRead := false, who := some w, access := a, fill := false, va := va }
      let (m, _, d) := Dev.lookupThreads w r a rest d
      (m, some (va / 4096), d)

/-- What stops an instruction: a wait, or an error. -/
inductive Halt where
  | wait (why : Why)
  | error (code : Nat)
  deriving DecidableEq, Repr

/-- A thread's access with its place. -/
structure Acc1 where
  t : Nat
  va : Nat
  spot : Spot
  deriving DecidableEq, Repr

/-- The places of the threads' accesses, shadows taken for a write; the first that has none stops the instruction. -/
def Dev.placeThreads (r : Run) (n : Nat) (write : Bool) (xs : SMap Xent) : List (Nat × Nat) → Dev → List Acc1 × Option Halt × Dev
  | [], d => ([], none, d)
  | (t, va) :: rest, d =>
    match smapGet? xs t with
    | none => ([], none, d)
    | some x =>
      match d.spotOf r.part r.q r.slot x va n write with
      | (.at_ s, d) =>
        let (l, h, d) := Dev.placeThreads r n write xs rest d
        ({ t := t, va := va, spot := s } :: l, h, d)
      | (.copying g, d) => ([], some (.wait (.shadow g)), d)
      | (.miss p, d) => ([], some (.wait (.walk p)), d)
      | (.exhausted, d) => ([], some (.error errReserve), d)

/-- Translating and placing every thread's access. -/
def Dev.reach (w : Who) (r : Run) (n : Nat) (a : Access) (as : List (Nat × Nat)) (d : Dev) : List Acc1 × Option Halt × Dev :=
  match d.lookupThreads w r a as with
  | (_, some page, d) => ([], some (.wait (.walk page)), d)
  | (xs, none, d) => d.placeThreads r n (a ≠ .read) xs as

/-! ### Making accesses -/

/-- Accesses made so far: lines read, values by thread, threads done, requests sent over Reel, and what stopped them. -/
structure Made where
  lines : SMap (Line × Bool)
  vals : SMap Nat
  done : Mask
  remote : List Nat
  halt : Option Halt
  deriving DecidableEq, Repr

def Made.start : Made := { lines := [], vals := [], done := 0, remote := [], halt := none }

def Made.took (m : Made) (t v : Nat) : Made :=
  { m with vals := smapPut m.vals t v, done := m.done ||| BitVec.ofNat 64 (2 ^ t) }

/-- Why a request for a line waits (R175, R306). -/
def Dev.lineWhy (d : Dev) (rq : Rq) (n : Nat) (write : Bool) : Why :=
  if d.mustWait rq n write then .line (64 * n) else .tokens (d.home (64 * n))

/-- One read of a thread over Reel (R336). -/
def Dev.remoteLoad (w : Who) (r : Run) (a : Acc1) (win : WinRef) (off n reg : Nat) (sext : Bool) (m : Made) (d : Dev) :
    Made × Dev :=
  match d.sendAccess (r.stream w.core.val) (some w) a.t win off a.va (.read a.t reg n sext) reelRead [n] with
  | (some id, d) => ({ m with done := m.done ||| BitVec.ofNat 64 (2 ^ a.t), remote := m.remote ++ [id] }, d)
  | (none, d) => ({ m with halt := some (.error errDeviceLost) }, d)

/-- Loads of the threads in order: plain through a near cache that is not of size 0, else at the point of coherence, one
request for each line (log 20). -/
def Dev.loads (w : Who) (r : Run) (plain : Bool) (n reg : Nat) (sext : Bool) : List Acc1 → Made → Dev → Made × Dev
  | [], m, d => (m, d)
  | a :: rest, m, d =>
    let k := w.core.val
    match a.spot with
    | .window win off =>
      let (m, d) := d.remoteLoad w r a win off n reg sext m
      if m.halt.isSome then (m, d) else Dev.loads w r plain n reg sext rest m d
    | .memory pa =>
      if plain && (d.core k).nearUnits ≠ 0 then
        match d.nearLoad (r.rq k) k a.va pa n with
        | none => ({ m with halt := some (.wait (d.lineWhy (r.rq k) (pa / 64) false)) }, d)
        | some ((v, bad), d) =>
          if bad then ({ m with halt := some (.error errPoison) }, d)
          else Dev.loads w r plain n reg sext rest (m.took a.t v) d
      else
        let got : Option ((Line × Bool) × Dev) := match smapGet? m.lines (pa / 64) with
          | some l => some (l, d)
          | none => d.pocRead (r.rq k) (pa / 64)
        match got with
        | none => ({ m with halt := some (.wait (d.lineWhy (r.rq k) (pa / 64) false)) }, d)
        | some (l, d) =>
          let (v, bad) := d.mergedRead k l pa n
          if bad then ({ m with halt := some (.error errPoison) }, d)
          else Dev.loads w r plain n reg sext rest { (m.took a.t v) with lines := smapPut m.lines (pa / 64) l } d
    | .nowhere =>
      let (bs, d) := Dev.drawBytes n d
      Dev.loads w r plain n reg sext rest (m.took a.t (leNat bs)) d

/-- Line writes of the threads' stores: for each line in order of first use, its threads, bytes and mask; a later thread's
bytes replace an earlier one's. -/
structure LineWrite where
  line : Nat
  threads : Mask
  mask : Mask
  data : Line
  deriving DecidableEq, Repr

def addWrite (t n pa v : Nat) : List LineWrite → List LineWrite
  | [] => [{ line := pa / 64, threads := BitVec.ofNat 64 (2 ^ t), mask := spanMask (pa % 64) n, data := fieldLine v (pa % 64) n }]
  | x :: rest =>
    if x.line = pa / 64 then
      { x with threads := x.threads ||| BitVec.ofNat 64 (2 ^ t), mask := x.mask ||| spanMask (pa % 64) n
               data := mergeLine x.data (spanMask (pa % 64) n) (fieldLine v (pa % 64) n) } :: rest
    else x :: addWrite t n pa v rest

/-- Writes at the point of coherence; the first that must wait stops the rest. A copy in the issuing core's near cache takes
the bytes as well when update is set (R153), and is dropped when it is not. -/
def Dev.lineWrites (k : Nat) (rq : Rq) (update : Bool) : List LineWrite → Made → Dev → Made × Dev
  | [], m, d => (m, d)
  | x :: rest, m, d =>
    match d.pocWrite rq x.line x.mask x.data with
    | none => ({ m with halt := some (.wait (d.lineWhy rq x.line true)) }, d)
    | some d =>
      let d := match d.nearLine? k x.line with
        | none => d
        | some y =>
          if update then d.setCore k { d.core k with near := (d.core k).near.map fun z =>
            if z.line = x.line then { z with data := mergeLine z.data x.mask x.data, valid := z.valid ||| x.mask
                                             dirty := z.dirty &&& ~~~x.mask, poison := z.poison &&& ~~~x.mask } else z }
          else d.dropNear k y.line
      Dev.lineWrites k rq update rest { m with done := m.done ||| x.threads } d

/-- A thread's write over Reel (R336). -/
def Dev.remoteStore (w : Who) (r : Run) (a : Acc1) (win : WinRef) (off n v : Nat) (m : Made) (d : Dev) : Made × Dev :=
  match d.sendAccess (r.stream w.core.val) (some w) a.t win off a.va (.write false) reelWrite [n, v] with
  | (some _, d) => ({ m with done := m.done ||| BitVec.ofNat 64 (2 ^ a.t) }, d)
  | (none, d) => ({ m with halt := some (.error errDeviceLost) }, d)

/-- Stores of the threads: near through the near cache, else collected for the point of coherence. -/
def Dev.stores (w : Who) (r : Run) (near : Bool) (n : Nat) (val : Nat → Nat) :
    List Acc1 → List LineWrite → Made → Dev → List LineWrite × Made × Dev
  | [], ls, m, d => (ls, m, d)
  | a :: rest, ls, m, d =>
    let k := w.core.val
    match a.spot with
    | .window win off =>
      let (m, d) := d.remoteStore w r a win off n (val a.t) m
      if m.halt.isSome then (ls, m, d) else Dev.stores w r near n val rest ls m d
    | .memory pa =>
      if near then
        let d := d.nearStore k a.va pa (spanMask (pa % 64) n) (fieldLine (val a.t) (pa % 64) n)
        Dev.stores w r near n val rest ls { m with done := m.done ||| BitVec.ofNat 64 (2 ^ a.t) } d
      else Dev.stores w r near n val rest (addWrite a.t n pa (val a.t) ls) m d
    | .nowhere => Dev.stores w r near n val rest ls { m with done := m.done ||| BitVec.ofNat 64 (2 ^ a.t) } d

/-- Atomics of the threads, ascending (R78): the core's own dirty bytes are written back and its copy dropped first (R153).
A scope too narrow for the agents that share the location changes nothing here (DESIGN CHOICE, log 117). -/
def Dev.atomics (w : Who) (r : Run) (aop : Nat) (wide noret : Bool) (reg : Nat) (val cmp : Nat → Nat) :
    List Acc1 → Made → Dev → Made × Dev
  | [], m, d => (m, d)
  | a :: rest, m, d =>
    let k := w.core.val
    match a.spot with
    | .window win off =>
      let kind : RemoteKind := if noret then .write true else .atomic a.t reg wide
      match d.sendAccess (r.stream k) (some w) a.t win off a.va kind reelAtomic
          [aop, if wide then 1 else 0, val a.t, cmp a.t] with
      | (some id, d) =>
        Dev.atomics w r aop wide noret reg val cmp rest
          { m with done := m.done ||| BitVec.ofNat 64 (2 ^ a.t), remote := m.remote ++ [id] } d
      | (none, d) => ({ m with halt := some (.error errDeviceLost) }, d)
    | .memory pa =>
      match (d.evictNear k (pa / 64)).pocAtomic (r.rq k) pa aop wide (val a.t) (cmp a.t) with
      | none => ({ m with halt := some (.wait (d.lineWhy (r.rq k) (pa / 64) true)) }, d)
      | some ((old, bad), d) =>
        if bad then ({ m with halt := some (.error errPoison) }, d)
        else Dev.atomics w r aop wide noret reg val cmp rest (m.took a.t old) d
    | .nowhere =>
      let (bs, d) := Dev.drawBytes 8 d
      Dev.atomics w r aop wide noret reg val cmp rest (m.took a.t (leNat bs)) d

/-! ### The end of an issue -/

/-- The value a load writes (R76): 8-bit and 16-bit values extended to 32 bits. -/
def loadValue (n : Nat) (sext : Bool) (v : Nat) : Nat :=
  if n < 4 && sext then wrapNat 32 (sextNat (8 * n) v) else v

/-- Writing loaded or old values to VR in the threads that have one. -/
def Grp.setLoaded (g : Grp) (reg n : Nat) (sext : Bool) (vals : SMap Nat) : Grp :=
  let m := maskOf fun t => (smapGet? vals t).isSome
  (List.range ((n + 3) / 4)).foldl (fun g j =>
    g.setVreg (reg + j) m fun t => BitVec.ofNat 32 (natBitsAt (loadValue n sext (smapGet vals t 0)) (32 * j) 32)) g

/-- Thread t's n-byte value of a register operand. -/
def Grp.memVal (g : Grp) (reg n t : Nat) : Nat :=
  ((List.range ((n + 3) / 4)).map fun j => (g.vreg (reg + j) t).toNat * 2 ^ (32 * j)).sum % 2 ^ (8 * n)

/-- An issue of a memory instruction ends: with an error, with a wait for the threads not yet served, or past the instruction. Answers
over Reel that will write registers are noted, and only an instruction that names one waits for them (R28); an acquire waits for its
own at once, since its acquire action follows them (R154, R156). -/
def Dev.memEnd (d : Dev) (w : Who) (g : Grp) (left : Mask) (halt : Option Halt) (away : List (Nat × List Nat)) (acquire : List Nat) :
    Dev :=
  let c := d.core w.core.val
  match c.run with
  | none => d
  | some r =>
    let g := { g with away := g.away ++ away }
    match halt with
    | some (.error e) => d.instError w c r g e
    | some (.wait why) => d.stall w c r { g with todo := some left } why
    | none =>
      let g := { g with todo := none, pc := g.pc + 1 }
      if acquire = [] then d.putThr w c r g else d.stall w c r g (.acquire acquire)

/-- A memory instruction of a follow group (R57, R76): its remaining threads' addresses, checked, and handed on. -/
def Dev.memory (w : Who) (o : MemOp) (regs : List Nat) (bad : Run → Bool) (n align : Nat) (write : Bool)
    (body : Run → Grp → Mask → List (Nat × Nat) → Dev → Dev) (d : Dev) : Dev :=
  d.issue w false (regs ++ memVx o) (fun _ r _ => bad r) fun c r g =>
    let eff := g.todo.getD (g.eff o.pr)
    if eff = 0 then d.putThr w c r { g with todo := none, pc := g.pc + 1 }
    else
      let as := (threadsOf eff).map fun t => (t, (g.addr o n t).toNat)
      match d.precheck r write align n (as.map (·.2)) with
      | some e => d.instError w c r g e
      | none => body r g eff as d

/-- A release at S7 waits until the thread's remote writes and atomics are acknowledged (R337). -/
def Dev.releaseWaits (d : Dev) (w : Who) (release : Bool) (scope : Nat) : List Nat :=
  if release && scope = 7 then d.unacked w else []

end Sys2Proof.Machine
end

