-- ==== Sys2Proof/Machine/WindowOps.lean ====
section
/-! DEFINITION. Walks that end (09 R219, R225 to R227), accesses that arrive at or return from remote windows (R229 to R231, 14
R335 to R339). -/

namespace Sys2Proof.Machine

open Sys2Proof

/-! ### Commands that fail -/

/-- A command ends with a code: before it runs at once, while it runs by its kill (R226, R280). -/
def Dev.failCmd (d : Dev) (q slot code : Nat) : Dev :=
  match d.cmd? q slot with
  | none => d
  | some c => if c.st = .running || c.st = .committing then d.raise q slot code else d.endCmd q slot code

/-- A stream that cannot go on (R226, R227): its group or lead thread issues nothing further (R91) and its command ends, or a queue's
ring cannot be read (R249). -/
def Dev.failStream (d : Dev) (s : Strm) : Dev :=
  if s.slotRead then d.ringFault s.q else (d.stopThread s.q s.slot s.who).failCmd s.q s.slot errRangeFault

/-- The partition of a context: the one, not FREE, whose block holds it (R237). -/
def Dev.ctxPart (d : Dev) (ctx : Nat) : Option Nat :=
  (List.range 48).find? fun p => d.partState p ≠ partFree && d.ctxIn p ctx

/-! ### The end of a walk -/

/-- The fault of one stream: its key's span, or what the spec leaves open for causes that do not coalesce (log 7). -/
def Dev.streamFault (d : Dev) (p ctx cause span pages : Nat) (stalls : Bool) (s : Strm) : Dev :=
  let (span, pages, d) : Nat × Nat × Dev :=
    if causePends cause then (span, pages, d)
    else
      let (a, d) := d.draw
      let (b, d) := d.draw
      (natBitsAt a.toNat 0 45, natBitsAt b.toNat 0 45, d)
  d.fault p
    { ctx := ctx, cause := cause, span := span, spanPages := pages, va := s.va, access := accessBits s.access, fill := s.fill,
      q := s.q, seen := BitVec.ofNat 64 (d.syncSeq p ctx), time := d.cycleCounter p, stalled := if stalls then some s else none }

/-- Replacing a walk, or removing it when no stream waits on it. -/
def Dev.putWalk (d : Dev) (w w' : Walk) : Dev :=
  { d with walks := (d.walks.map fun y => if y = w then w' else y).filter (fun y => y.streams ≠ []) }

/-- Streams that fault with a pending cause stall on its key (R225). -/
def Dev.stallStreams (d : Dev) (p : Nat) (w : Walk) (ss : List Strm) (cause span pages : Nat) : Dev :=
  if ss = [] then d.putWalk w { w with streams := [] }
  else
    let d := d.putWalk w { w with streams := ss, fault := some (cause, span, pages) }
    ss.foldl (fun d s => d.streamFault p w.ctx cause span pages true s) d

/-- A walk's answer to every stream that waits on it (R219, R223, R225, R226). -/
def Dev.answerWalk (d : Dev) (p : Nat) (w : Walk) (e : WalkEnd) : Dev :=
  match e with
  | .entry x =>
    let d := d.cacheXent w.tile x
    d.stallStreams p w (w.streams.filter fun s => !x.grants s.access) causeRights x.rangePage x.rangePages
  | .fault cause =>
    if cause = causeNotMapped then d.stallStreams p w w.streams causeNotMapped w.page 1
    else
      let d := d.putWalk w { w with streams := [] }
      w.streams.foldl (fun d s => (d.streamFault p w.ctx cause 0 0 false s).failStream s) d

/-- The requests of a tile's walkers, or of the Caller's (R306). -/
def Dev.walkRq (d : Dev) (tile p ctx : Nat) : Rq :=
  if tile < 48 then { part := p, ctx := some ctx, quad := some (tile / 12), num := walkerNum tile } else d.callerRq p ctx

/-- WALK_COMPLETE: a walk that has a walker and finds its tokens reads the range table and ends. -/
def Dev.walkEnds (tile ctx page : Nat) (d : Dev) : Dev :=
  match d.walks.find? (fun w => w.tile = tile && w.ctx = ctx && w.page = page && w.fault = none && d.walking w), d.ctxPart ctx with
  | some w, some p =>
    let (e, ls) := d.walk p ctx page
    match d.walkReads (d.walkRq tile p ctx) ls.eraseDups with
    | none => d
    | some d => d.answerWalk p w e
  | _, _ => d

/-! ### Verdicts (R227) -/

/-- The pending record a verdict names. -/
def Dev.pendingRecord (d : Dev) (p record : Nat) : Option FaultRec := (d.part p).pendFaults.find? fun r => r.num = record

def Dev.resolveRetry (p record : Nat) (d : Dev) : Dev :=
  match d.pendingRecord p record with
  | none => d
  | some r => d.resolveKey p r.ctx r.cause r.span r.spanPages

def Dev.resolveFail (p record : Nat) (d : Dev) : Dev :=
  match d.pendingRecord p record with
  | none => d
  | some r =>
    let ws := d.keyWalks r.ctx r.cause r.span r.spanPages
    let d := { d with walks := d.walks.filter fun w => !ws.contains w }
    let d := d.resolveKey p r.ctx r.cause r.span r.spanPages
    (ws.flatMap Walk.streams).foldl Dev.failStream d

/-- A write of XLT_FQ_RESOLVE (R227, R434): reserved verdicts are ignored. -/
def Dev.writeResolve (p v : Nat) (d : Dev) : Dev :=
  if natBitsAt v 32 2 = 1 then d.resolveRetry p (natBitsAt v 0 32)
  else if natBitsAt v 32 2 = 2 then d.resolveFail p (natBitsAt v 0 32)
  else d

/-- A write of CONS (R228): not below its present value nor above PROD, modulo 2^32. -/
def Dev.writeCons (p cons : Nat) (d : Dev) : Dev :=
  if (cons + 2 ^ 32 - d.fqCons p) % 2 ^ 32 ≤ d.fqUsed p then d.set fXltFqConsCons cons p else d

/-! ### The window table (R229 to R231) -/

/-- Entry w of the window table: a cached copy, or the table's words, none from poisoned memory. -/
def Dev.windowEntry (d : Dev) (w : Nat) : Option (List W64) × Dev :=
  match smapGet? d.reel.winCache w with
  | some e => (some e, d)
  | none =>
    let pa := d.get fXltWinBaseBase * 4096 + 32 * w
    let (bs, bad) := d.peek pa 32
    let d := d.noted pa 32
    if bad then (none, d)
    else
      let e := (wordsOf bs 4).map (BitVec.ofNat 64)
      (some e, d.setReel { d.reel with winCache := smapPut d.reel.winCache w e })

/-- R230 for an access of the types given: the local address and OWNER, or none where it is refused. An entry whose OWNER is one of the
reserved values 48 to 63 refuses every access (DESIGN CHOICE, log 125). -/
def admitWindow (e : List W64) (src off key : Nat) (read write atomic : Bool) : Option (Nat × Nat) :=
  let w (i : Nat) : Nat := (e.getD i 0).toNat
  let w2 := w 2
  let owner := natBitsAt w2 0 6
  if w2.testBit 9 && off < natBitsAt (w 1) 0 45 * 4096 && (!read || w2.testBit 6) && (!write || w2.testBit 7)
      && (!atomic || w2.testBit 8) && natBitsAt w2 32 32 = key && (natBitsAt w2 16 12 = 0xFFF || natBitsAt w2 16 12 = src)
      && owner < 48 then
    some (natBitsAt (w 0) 0 40 * 4096 + off, owner)
  else none

/-- The admission of an access from another module (R230, R232). -/
def Dev.admitRemote (d : Dev) (src window off key : Nat) (read write atomic : Bool) : Option (Nat × Nat) × Dev :=
  if d.get fXltWinBaseEnable = 0 then (none, d)
  else match d.windowEntry window with
    | (none, d) => (none, d)
    | (some e, d) => (admitWindow e src off key read write atomic, d)

/-- A refusal (R230): counted, logged, and reported to the sender. -/
def Dev.refuseRemote (d : Dev) (src window off id : Nat) : Dev :=
  ((d.bump fXltWinStatRefused 1).log 4 noneByte noneByte 0 0 off [src, window]).emit (.reel src reelRefuse [id])

/-- The receiver's requests for another module's accesses (R230, R306): OWNER's budget. -/
def receiverRq (owner : Nat) : Rq := { part := owner, ctx := none, quad := none, num := receiverNum }

/-- REMOTE_WINDOW_ACCESS (R230, R336): a stream request for OWNER, answered RETRY where it finds no token. -/
def Dev.remoteAccess (src window off key : Nat) (op : RemoteOp) (id : Nat) (d : Dev) : Dev :=
  let (r, w, a) : Bool × Bool × Bool := match op with
    | .read _ => (true, false, false)
    | .write _ => (false, true, false)
    | .atomic _ _ _ _ => (false, false, true)
  match d.admitRemote src window off key r w a with
  | (none, d) => d.refuseRemote src window off id
  | (some (pa, owner), d) =>
    let rq := receiverRq owner
    let retry := d.emit (.reel src reelRetry [id])
    match op with
    | .read n =>
      match Dev.pocBytes rq pa n d with
      | none => retry
      | some ((bs, bad), d) => d.emit (.reel src reelAnswer [id, leNat bs, if bad then 1 else 0])
    | .write bs =>
      match Dev.pocStore rq pa bs d with
      | none => retry
      | some d => d.emit (.reel src reelAck [id])
    | .atomic aop wide v c =>
      match Dev.pocAtomic rq pa aop.toNat wide v.toNat c.toNat d with
      | none => retry
      | some ((old, bad), d) => d.emit (.reel src reelAnswer [id, old, if bad then 1 else 0])

/-! ### Answers from another module -/

/-- The thread that a remote request's answer goes to: of the command's running troupe, not exited, and still awaiting it. -/
def Dev.awaiter (d : Dev) (m : Remote) : Option (Who × Core × Run × Grp) :=
  match m.who with
  | none => none
  | some w =>
    let c := d.core w.core.val
    match c.run with
    | none => none
    | some r =>
      match r.thr w.thr with
      | none => none
      | some g =>
        if r.q = m.q && r.slot = m.slot && g.sched ≠ .exited && g.away.any (fun x => x.1 = m.id) then some (w, c, r, g) else none

/-- Writing an answer to the thread that waits for it; poison ends its command (R185), whether or not the thread still runs. -/
def Dev.answerThread (d : Dev) (m : Remote) (thread reg n : Nat) (sext : Bool) (v : Nat) (bad : Bool) : Dev :=
  let d := d.dropRemote m.id
  match d.awaiter m with
  | none => if bad then d.raise m.q m.slot errPoison else d
  | some (w, c, r, g) =>
    let g := { g with away := g.away.filter fun x => x.1 ≠ m.id }
    if bad then d.instError w c r g errPoison else d.putThr w c r (g.setLoaded reg n sext [(thread, v)])

/-- Writing an answer into a ring's fill. -/
def Fill.put (f : Fill) (off : Nat) (bs : List Byte) (bad : Bool) : Fill :=
  { f with bytes := f.bytes.take off ++ bs ++ f.bytes.drop (off + bs.length), poisoned := f.poisoned || bad }

def Dev.answerFill (d : Dev) (m : Remote) (ring num off n : Nat) (v : Nat) (bad : Bool) : Dev :=
  let d := d.dropRemote m.id
  match m.who with
  | none => d
  | some w =>
    let c := d.core w.core.val
    match c.run with
    | none => d
    | some r =>
      match r.rings[ring]? with
      | none => d
      | some x =>
        let put (f : Fill) : Fill := if f.num = num then f.put off (leBytes n v) bad else f
        d.setCore w.core.val { c with run := some { r with rings := r.rings.set ring { x with fills := x.fills.map put } } }

/-- Writing an answer to the destination of a COPY; it waits like any write of its channel. -/
def Dev.answerMove (d : Dev) (m : Remote) (dst n : Nat) (v : Nat) (bad : Bool) : Dev :=
  if bad then (d.dropRemote m.id).raise m.q m.slot errPoison
  else match d.copyTile m.q with
    | none => d
    | some t =>
      let s := d.stream t m.q m.slot
      match d.place s dst n true with
      | (.at_ spot, d) =>
        match Dev.putChunk s (d.channelRq s) spot dst (leBytes n v) d with
        | some (_, d) => d.dropRemote m.id
        | none => d
      | (.exhausted, d) => (d.dropRemote m.id).raise m.q m.slot errReserve
      | (_, d) => d

/-- The answer to a read or atomic sent over Reel (R333, R336); an atomic without a return is acknowledged by it, and takes its poison. -/
def Dev.remoteAnswer (id v : Nat) (bad : Bool) (d : Dev) : Dev :=
  match d.remote? id with
  | none => d
  | some m =>
    match m.kind with
    | .read t reg n sext => d.answerThread m t reg n sext v bad
    | .atomic t reg wide => d.answerThread m t reg (if wide then 8 else 4) false v bad
    | .fill ring num off n => d.answerFill m ring num off n v bad
    | .move dst n => d.answerMove m dst n v bad
    | .write true => if bad then (d.dropRemote id).raise m.q m.slot errPoison else d.dropRemote id
    | _ => d

/-- The acknowledgement of a write, an atomic without an answer, a signal or a segment (R336, R338). -/
def Dev.remoteAcked (id : Nat) (d : Dev) : Dev :=
  match d.remote? id with
  | none => d
  | some m =>
    match m.kind with
    | .write _ | .fence _ | .segment => d.dropRemote id
    | _ => d

/-- The access type of a request, for a fault record. -/
def RemoteKind.accessBits : RemoteKind → Nat
  | .read _ _ _ _ | .fill _ _ _ _ | .move _ _ => 1
  | .write true | .atomic _ _ _ => 4
  | .write false | .segment => 2
  | .fence _ => 2

/-- WINDOW_ACCESS_REFUSED (R226, R230, R338): the command ends with RANGE_FAULT and its partition gets a WINDOW record; a refused
signal is discarded. -/
def Dev.accessRefused (id : Nat) (d : Dev) : Dev :=
  match d.remote? id with
  | none => d
  | some m =>
    match m.kind with
    | .fence _ => d.signalLost m
    | k =>
      let fill : Bool := match k with
        | .fill _ _ _ _ => true
        | _ => false
      let d := (d.dropRemote id).errorRecord m.part m.q causeWindow m.va k.accessBits fill
      (d.stopThread m.q m.slot m.who).failCmd m.q m.slot errRangeFault

end Sys2Proof.Machine
end

