-- ==== Sys2Proof/Machine/CohOps.lean ====
section
/-! DEFINITION. The coherence protocol (07): transactions at the homes, snoops, grants, admission, timeouts and dead agents. An
agent's requester number is its agent ID (log 22); in the lists of reservations and refusals it is 4,096 + ID. -/

namespace Sys2Proof.Machine

open Sys2Proof

/-! ### Agents -/

/-- May an agent cache a line (R167, R170)? -/
def mayCache (a n : Nat) : Bool :=
  let pa := 64 * n
  if a < 12 then isLp pa && (pa - lpBase) / 256 % 3 = a % 3
  else if a = 12 then isHbm pa
  else isHbm pa || isLp pa

/-- Do an agent's messages reach the homes? The companion's cross the link while it is UP (R320, R322). -/
def Dev.reaches (d : Dev) (a : Nat) : Bool := a ≠ 13 || d.get fUlkStatState = ulkUp

/-- Agents that the home of a line still snoops (R184). -/
def Dev.liveAgents (d : Dev) (n : Nat) : List Nat := allAgents.filter fun a => !d.knowsDead (d.home (64 * n)) a

/-- A stream request as it takes entries and tokens, and is metered (R306, R307). -/
def streamRq (x : Requester) : Rq :=
  { part := (x.part.map Fin.val).getD 48, ctx := x.ctx.map BitVec.toNat, quad := none, num := x.num.toNat }

/-- A sender's number at the homes (log 22). -/
def senderNum : Sender → Nat
  | .agent a => agentNum a.val
  | .requester k => k.toNat

/-! ### Messages -/

def Dev.sendCoh (d : Dev) (m : CohMsg) : Dev := d.setCoh { d.coh with msgs := d.coh.msgs ++ [m] }

/-- Taking a message out of flight. -/
def Dev.takeCoh (d : Dev) (m : CohMsg) : Dev := d.setCoh { d.coh with msgs := d.coh.msgs.erase m }

/-! ### Transactions (R175, R176) -/

def HomeReq.agent? : HomeReq → Option Nat
  | .rdShared a _ | .rdOwn a _ | .claimOwn a _ | .evict a | .writeBack a _ _ _ => some a
  | _ => none

/-- Whom a request is made for. -/
def HomeReq.rq : HomeReq → Rq
  | .rdShared _ rq | .rdOwn _ rq | .claimOwn _ rq | .writeBack _ rq _ _ | .hostRd rq _ _ | .hostWr rq _ _ | .poke rq _ _ => rq
  | .strRd x _ | .strWr x _ _ | .strAtom x _ _ _ _ _ => streamRq x
  | .evict _ => Rq.provider

/-- Does a request need every other copy gone? -/
def HomeReq.exclusive : HomeReq → Bool
  | .rdOwn _ _ | .claimOwn _ _ | .strWr _ _ _ | .strAtom _ _ _ _ _ _ | .hostWr _ _ _ | .poke _ _ _ => true
  | _ => false

def HomeReq.drops : HomeReq → Bool
  | .evict _ | .writeBack _ _ _ _ => true
  | _ => false

/-- The agents a request snoops and whether the snoop invalidates (R172, R173, R176): for a line whose tag entry was lost, every
agent it might name. -/
def Dev.snoops (d : Dev) (n : Nat) (r : HomeReq) : Bool × List Nat :=
  let others := (d.liveAgents n).filter fun a => r.agent? ≠ some a
  if r.drops then (false, [])
  else if d.coh.suspect.contains n then (true, others.filter fun a => mayCache a n)
  else if r.exclusive then (true, others.filter fun a => d.tag a n ≠ .i)
  else (false, others.filter fun a => d.tag a n = .e || d.tag a n = .m)

def Dev.firstTxn (d : Dev) (n : Nat) : Option Txn := d.coh.txns.find? fun t => t.line = n

/-- Replacing the first transaction of its line. -/
def putFirst (t : Txn) : List Txn → List Txn
  | [] => []
  | x :: rest => if x.line = t.line then t :: rest else x :: putFirst t rest

def dropFirst (n : Nat) : List Txn → List Txn
  | [] => []
  | x :: rest => if x.line = n then rest else x :: dropFirst n rest

def Dev.putTxn (d : Dev) (t : Txn) : Dev := d.setCoh { d.coh with txns := putFirst t d.coh.txns }

/-- The first transaction of its line starts: its snoops leave. The mark of a lost tag entry is over with the first request that snoops
(R172). -/
def Dev.beginTxn (d : Dev) (t : Txn) : Dev :=
  let (inv, as) := d.snoops t.line t.req
  let d := d.putTxn { t with started := true, awaiting := as }
  let d := if t.req.drops then d else d.setCoh { d.coh with suspect := d.coh.suspect.filter (· ≠ t.line) }
  as.foldl (fun d a => d.sendCoh (.snp t.line a inv)) d

/-- Data of an agent reaches the home (R173, R176, R195): the line in the slice and in memory, with its poison. -/
def Dev.homeTakes (d : Dev) (rq : Rq) (n : Nat) (x : Line) (bad : Bool) : Dev :=
  if !d.backed (64 * n) then d.withheld n rq.part
  else
    let d := (d.setMemLine n x).setPoison n bad
    let d := d.setHbm { d.hbm with bad := d.hbm.bad.filter (· ≠ n), weak := d.hbm.weak.filter (· ≠ n) }
    d.shcTouch (d.home (64 * n)) rq.part n true

/-- Granting a line to an agent (R173). -/
def Dev.grantLine (d : Dev) (n a : Nat) (st : LState) (x : Line) (bad : Bool) : Dev :=
  (d.setTag a n st).sendCoh (.grant n a st true x bad)

/-- Does a read that finds this data redirect to a replica (R214)? -/
def Dev.redirects (d : Dev) (n : Nat) (bad : Bool) (who : Sender) (r : HomeReq) : Option Dev :=
  if !bad then none
  else (d.replica n).map fun k => (d.log 3 (56 + d.home (64 * n)) noneByte 0 0 (64 * n) []).sendCoh (.redirect n who k r)

/-- A hart's read of a line (R185, R315): its bytes, or the access fault of poisoned data, which the log names. -/
def Dev.hartGets (d : Dev) (hart : Nat) (fetch : Bool) (n : Nat) (x : Line) (bad : Bool) : Dev :=
  if bad then (d.log 1 68 noneByte 0 0 (64 * n) []).emit (.hartFault hart (if fetch then .fetch else .load))
  else d.emit (.line (agentNum 12) n x false)

/-- The state that a home grants: a companion whose allowance is 0 keeps nothing (R321). -/
def Dev.granted_ (d : Dev) (a : Nat) (st : LState) : LState := if d.agentWays a = 0 then .i else st

/-- A request whose snoops are answered is served (R173, R176, R177); one of an agent that the home knows to be dead is refused (R184). A
CLAIM_OWN that waited for an agent declared dead gets M without data, like any other, so that the requester's own copy stands
(DESIGN CHOICE, log 122). -/
def Dev.serveTxn (d : Dev) (n : Nat) (r : HomeReq) : Dev :=
  if r.agent?.any fun a => d.knowsDead (d.home (64 * n)) a then d
  else match r with
  | .rdShared a rq =>
    let ((x, bad), d) := d.homeRead rq n .clean
    match d.redirects n bad (.agent (Fin.ofNat 14 a)) r with
    | some d => d
    | none => d.grantLine n a (d.granted_ a (if allAgents.any fun b => b ≠ a && d.tag b n ≠ .i then .s else .e)) x bad
  | .rdOwn a rq =>
    let ((x, bad), d) := d.homeRead rq n .clean
    d.grantLine n a (d.granted_ a .m) x bad
  | .claimOwn a rq =>
    if d.tag a n = .s then (d.setTag a n .m).sendCoh (.grant n a .m false 0 false)
    else
      let ((x, bad), d) := d.homeRead rq n .clean
      d.grantLine n a (d.granted_ a .m) x bad
  | .evict a => d.setTag a n .i
  | .writeBack a rq x bad => (d.homeTakes rq n x bad).setTag a n .i
  | .strRd rq found =>
    let ((x, bad), d) := d.homeRead (streamRq rq) n found
    match d.redirects n bad (.requester rq.num) r with
    | some d => d
    | none => d.sendCoh (.toRequester n rq.num.toNat x bad)
  | .strWr rq m x => d.homeWrite (streamRq rq) n m x
  | .strAtom rq off aop wide v c =>
    let ((x, bad), d) := d.homeRead (streamRq rq) n .clean
    let d := if bad then d
      else (d.pokeLine n (BitVec.allOnes 64) (atomLine x off aop wide v.toNat c.toNat)).shcTouch (d.home (64 * n)) (streamRq rq).part n true
    d.sendCoh (.toRequester n rq.num.toNat (BitVec.ofNat 512 (atomWord x off wide)) bad)
  | .hostRd rq hart fetch =>
    let ((x, bad), d) := d.homeRead rq n .clean
    d.hartGets hart fetch n x bad
  | .hostWr rq m x => d.homeWrite rq n m x
  | .poke rq m x => d.homeWrite rq n m x

/-- The home's work on a line, as far as it goes: a transaction whose answers are all there is served, and the next starts. -/
def Dev.settleLine (n : Nat) : Nat → Dev → Dev
  | 0, d => d
  | fuel + 1, d =>
    match d.firstTxn n with
    | none => d
    | some t =>
      if !t.started then Dev.settleLine n fuel (d.beginTxn t)
      else if t.awaiting = [] && t.owed = [] then
        Dev.settleLine n fuel ((d.setCoh { d.coh with txns := dropFirst n d.coh.txns }).serveTxn n t.req)
      else d

def Dev.settleHome (d : Dev) (n : Nat) : Dev := Dev.settleLine n (2 * d.coh.txns.length + 2) d

def Dev.pushTxn (d : Dev) (n : Nat) (r : HomeReq) : Dev :=
  (d.setCoh { d.coh with txns := d.coh.txns ++
    [{ home := d.home (64 * n), line := n, req := r, started := false, awaiting := [], owed := [] }] }).settleHome n

/-! ### Refusals (R180, R181) -/

/-- RETRY (R180): a reservation, one for each requester. -/
def Dev.answerRetry (d : Dev) (h num : Nat) : Dev :=
  if (d.reserved h).contains num then d
  else d.setCoh { d.coh with reservations := d.coh.reservations ++ [(h, num)] }

/-- The backoff of the n-th consecutive NACK, in SHC cycles (R181). -/
def backoffCycles (n num : Nat) : Nat := 128 * 2 ^ min (n - 1) 6 + 8 * (num % 16)

/-- NACK (R181). -/
def Dev.answerNack (d : Dev) (h num : Nat) : Dev :=
  let n := smapGet d.coh.nacks (reqKey h num) 0 + 1
  d.setCoh { d.coh with
    nacks := smapPut d.coh.nacks (reqKey h num) n
    backoff := d.coh.backoff.filter (fun b => !(b.1 = h && b.2.1 = num)) ++ [(h, num, backoffCycles n num)] }

/-- A request that is not accepted. -/
def Dev.refuse (d : Dev) (h num : Nat) : Dev :=
  if d.get fShcHomeCtlNackMode h = 1 then d.answerNack h num else d.answerRetry h num

/-! ### Requests of agents -/

/-- An agent's request, made for the access that caused it (R305, R306, R312). -/
def Dev.agentRq (d : Dev) (a n : Nat) : Rq := { (d.aline a n).rq with quad := none, num := agentNum a }

/-- A coherent request reaches its home (R173): it is the agent's outstanding one, or one that the agent's state lets it send, and the agent
has a way for the line (R167, R169); a companion without an allowance reads without keeping the line (R321). -/
def Dev.agentRequest (a n : Nat) (kind : AgentReq) (d : Dev) : Dev :=
  let x := d.aline a n
  let ok := match x.req with
    | some k => k = kind
    | none => if kind = .claimOwn then x.st = .s else x.st = .i
  let h := d.home (64 * n)
  if !mayCache a n || !d.reaches a || d.knowsDead h a || !ok || x.leaving || d.agentAsks a n || d.backsOff h (agentNum a)
      || (d.agentFull a n && d.agentWays a ≠ 0) then d
  else
    let rq := d.agentRq a n
    let d := d.setAline a n { x with req := some kind }
    match d.accepts h rq with
    | none => d.refuse h (agentNum a)
    | some d => d.pushTxn n (match kind with
        | .rdShared => .rdShared a rq
        | .rdOwn => .rdOwn a rq
        | .claimOwn => .claimOwn a rq)

/-- A drop notice reaches the home (R171, R174): it answers a snoop of this agent that is open, or takes its turn. -/
def Dev.agentDrop (a n : Nat) (wb : Bool) (d : Dev) : Dev :=
  let x := d.aline a n
  if !x.leaving || wb ≠ (x.st = .m) || !d.reaches a then d
  else
    let d := d.setAline a n { ALine.none with req := x.req, snoop := x.snoop, rq := x.rq }
    let r : HomeReq := if wb then .writeBack a x.rq x.data x.poison else .evict a
    match d.firstTxn n with
    | some t =>
      if t.started && (t.owed.contains a || t.awaiting.contains a) then
        ((d.serveTxn n r).putTxn { t with owed := t.owed.erase a }).settleHome n
      else d.pushTxn n r
    | none => d.pushTxn n r

/-! ### Snoops at agents (R173, R174, R179) -/

/-- An agent answers a snoop by its state. -/
def Dev.answerSnoop (d : Dev) (a n : Nat) (inv : Bool) : Dev :=
  let x := d.aline a n
  let st : LState := if inv || x.st = .i then .i else .s
  let owes := x.st = .m
  let d := if st = .i then d.setAline a n { ALine.none with req := x.req, leaving := x.leaving, rq := x.rq }
    else d.setAline a n { x with st := .s, snoop := none }
  let d := d.sendCoh (.resp n a st owes false)
  if owes then d.sendCoh (.toHome n a x.data x.poison) else d

/-- Is a grant of the line on its way to the agent (R174)? -/
def Dev.grantComing (d : Dev) (a n : Nat) : Bool :=
  d.coh.msgs.any fun m => match m with
    | .grant l b _ _ _ _ => l = n && b = a
    | _ => false

/-- A snoop reaches an agent. A dead agent answers nothing. -/
def Dev.snoopArrives (a n : Nat) (inv : Bool) (d : Dev) : Dev :=
  if !d.coh.msgs.contains (.snp n a inv) || d.dead a then d
  else
    let d := d.takeCoh (.snp n a inv)
    let x := d.aline a n
    if x.leaving then d.sendCoh (.resp n a .i false true)
    else if x.hold || d.grantComing a n then d.setAline a n { x with snoop := some inv }
    else d.answerSnoop a n inv

/-- A snoop that waited is answered. -/
def Dev.answerHeld (d : Dev) (a n : Nat) : Dev :=
  let x := d.aline a n
  match x.snoop with
  | some inv => if x.hold then d else (d.setAline a n { x with snoop := none }).answerSnoop a n inv
  | none => d

/-- The ownership hold ends, a local access having completed in it (R179): the snoop that waits is answered, and requests that wait for the
copy go on. -/
def Dev.holdEnds (a n : Nat) (d : Dev) : Dev :=
  let x := d.aline a n
  if !x.hold || !x.used then d else ((d.setAline a n { x with hold := false }).answerHeld a n).settleHome n

/-- A snoop response reaches the home (R171, R174): a response of a dead agent is discarded (R183). -/
def Dev.responseArrives (a n : Nat) (d : Dev) : Dev :=
  match d.coh.msgs.find? fun m => (match m with
      | .resp l b _ _ _ => l = n && b = a
      | _ => false) with
  | some (.resp l b st owes leaving) =>
    let d := d.takeCoh (.resp l b st owes leaving)
    if d.knowsDead (d.home (64 * n)) a then d
    else match d.firstTxn n with
      | some t =>
        if !t.started || !t.awaiting.contains a then d
        else
          let d := if leaving then d else d.setTag a n st
          let late := leaving && (d.aline a n).leaving
          (d.putTxn { t with awaiting := t.awaiting.erase a, owed := if owes || late then t.owed ++ [a] else t.owed }).settleHome n
      | none => d
  | _ => d

/-- The data a snooped agent owes reaches the home. -/
def Dev.owedArrives (a n : Nat) (d : Dev) : Dev :=
  match d.coh.msgs.find? fun m => (match m with
      | .toHome l b _ _ => l = n && b = a
      | _ => false) with
  | some (.toHome l b x bad) =>
    if d.knowsDead (d.home (64 * n)) a then d.takeCoh (.toHome l b x bad)
    else match d.firstTxn n with
      | some t =>
        if !t.owed.contains a then d
        else (((d.takeCoh (.toHome l b x bad)).homeTakes t.req.rq n x bad).putTxn { t with owed := t.owed.erase a }).settleHome n
      | none => d
  | _ => d

/-! ### Stream requests at a bridge (R170, R176, R177) -/

/-- A bridge serves a stream request, or a write of the Caller, from its own copy: a local access (R179). -/
def Dev.bridgeServe (d : Dev) (b n : Nat) (r : HomeReq) : Dev :=
  let x := d.aline b n
  let d := if x.hold then d.setAline b n { x with used := true } else d
  match r with
  | .strRd rq _ => d.sendCoh (.toRequester n rq.num.toNat x.data x.poison)
  | .strWr _ m l | .poke _ m l => d.setAline b n (x.written m l)
  | .strAtom rq off aop wide v c =>
    let d := if x.poison then d
      else d.setAline b n { x with st := .m, data := atomLine x.data off aop wide v.toNat c.toNat, used := true }
    d.sendCoh (.toRequester n rq.num.toNat (BitVec.ofNat 512 (atomWord x.data off wide)) x.poison)
  | _ => d

/-- The stream requests that wait at a bridge for a line, in their order. -/
def Dev.settleBridge (b n : Nat) : Nat → Dev → Dev
  | 0, d => d
  | fuel + 1, d =>
    match d.coh.waits.find? fun w => w.agent = b && w.line = n with
    | none => d
    | some w =>
      match bridgeNeeds (d.aline b n).st w.req.exclusive with
      | none => Dev.settleBridge b n fuel ((d.setCoh { d.coh with waits := d.coh.waits.erase w }).bridgeServe b n w.req)
      | some k => if (d.aline b n).req.isSome then d else d.setAline b n { d.aline b n with req := some k, rq := w.req.rq }

/-- A replaced line leaves (R173): S and E with EVICT, M with WRITE_BACK; a snoop that waits at the agent is answered with the mark that it
leaves (R174). -/
def Dev.replace (a n : Nat) (d : Dev) : Dev :=
  let x := d.aline a n
  if x.st = .i || x.leaving then d
  else
    let d := d.setAline a n { x with leaving := true, hold := false, used := false, snoop := none }
    if x.snoop.isSome then d.sendCoh (.resp n a .i false true) else d

/-- An agent that has no way for a line replaces another first. -/
def Dev.localRoom (d : Dev) (a n : Nat) : Dev :=
  if !d.agentFull a n then d
  else match d.agentVictim a n with
    | some v => d.replace a v
    | none => d

/-- A request without what the code finds, to tell it from another (R178). -/
def HomeReq.plain : HomeReq → HomeReq
  | .strRd rq _ => .strRd rq .clean
  | r => r

/-- Is an earlier, different request of this requester for the line still to be accepted (R178)? -/
def Dev.earlierRefused (d : Dev) (n num : Nat) (r : HomeReq) : Bool :=
  d.coh.refused.any fun x => x.1 = n && x.2.1 = num && x.2.2 ≠ r.plain

/-- The refused requests of a requester for a line without any. -/
def Dev.refusedOthers (d : Dev) (n num : Nat) : List (Nat × Nat × HomeReq) := d.coh.refused.filter fun x => !(x.1 = n && x.2.1 = num)

/-- A stream request (R176): at its home, where it is admitted, or at the bridge that serves an LPDDR5X line. -/
def Dev.streamRequest (rq : Requester) (n : Nat) (r : HomeReq) (d : Dev) : Dev :=
  let pa := 64 * n
  let num := rq.num.toNat
  if isLp pa && d.backed pa then
    let b := lpBridge rq.quad.val pa
    if d.dead b then d
    else
      let d := d.setCoh { d.coh with waits := d.coh.waits ++ [{ agent := b, line := n, req := r }] }
      Dev.settleBridge b n d.coh.waits.length (if (d.aline b n).st = .i then d.localRoom b n else d)
  else if isMemory pa then
    let h := d.home pa
    if d.backsOff h num || d.earlierRefused n num r then d
    else match d.accepts h (streamRq rq) with
    | none => (d.refuse h num).setCoh { (d.refuse h num).coh with refused := d.refusedOthers n num ++ [(n, num, r.plain)] }
    | some d => (d.setCoh { d.coh with refused := d.refusedOthers n num }).pushTxn n r
  else d

/-! ### Data at its destination -/

/-- DATA that grants a line reaches the agent (R173, R179). The companion's copy crosses the link; a dead agent's is lost. -/
def Dev.grantArrives (a n : Nat) (d : Dev) : Dev :=
  match d.coh.msgs.find? fun m => (match m with
      | .grant l b _ _ _ _ => l = n && b = a
      | _ => false) with
  | some (.grant l b st withData x bad) =>
    let d := d.takeCoh (.grant l b st withData x bad)
    if d.dead a then d
    else
      let y := d.aline a n
      let y : ALine := { y with st := st, data := if withData then x else y.data, poison := if withData then bad else y.poison,
                                hold := st = .e || st = .m, used := false, req := none }
      let d := (d.setAline a n y).answerHeld a n
      let d := if a = 13 then d.toCompanion (.line (agentNum 13) n y.data y.poison) else d
      let d := if a < 12 then Dev.settleBridge a n (d.coh.waits.length + 1) d else d
      d.settleHome n
  | _ => d

/-- DATA reaches a stream requester. -/
def Dev.requesterGets (num n : Nat) (d : Dev) : Dev :=
  match d.coh.msgs.find? fun m => (match m with
      | .toRequester l k _ _ => l = n && k = num
      | _ => false) with
  | some (.toRequester l k x bad) => (d.takeCoh (.toRequester l k x bad)).emit (.line num n x bad)
  | _ => d

/-- A redirect mark reaches its reader (R214, R323): it keeps nothing and sends the same read to the replica line. -/
def Dev.redirectArrives (who : Sender) (n : Nat) (d : Dev) : Dev :=
  match d.coh.msgs.find? fun m => (match m with
      | .redirect l w _ _ => l = n && w = who
      | _ => false) with
  | some (.redirect l w k r) =>
    let d := d.takeCoh (.redirect l w k r)
    match who with
    | .agent a =>
      let x := d.aline a.val n
      let d := d.setAline a.val n { x with req := none }
      let d := d.setAline a.val k { d.aline a.val k with req := x.req, rq := x.rq }
      if a = 13 then d.toCompanion (.redirected (agentNum 13) n k) else d
    | .requester num =>
      let d := d.emit (.redirected num.toNat n k)
      match r with
      | .strRd rq _ => Dev.streamRequest rq k (.strRd rq .clean) d
      | _ => d
  | _ => d

/-! ### Local accesses of agents (R173) -/

/-- A host hart's requests (R306, R307, R312): its partition's tag, and its context's while FZCTX is valid. -/
def Dev.hartRq (d : Dev) (hart : Nat) : Rq :=
  let w := (smapGet d.host.fzctx hart 0).toNat
  { part := (d.hartPart hart).getD 48, ctx := if w.testBit 63 then some (natBitsAt w 0 12) else none, quad := none,
    num := agentNum 12 }

/-- Whom an agent's local access is made for. -/
def Dev.localRq (d : Dev) (a hart : Nat) : Rq := if a = 12 then d.hartRq hart else Rq.provider

/-- May the access be made: a hart in reset makes none (R311), the companion's crosses the link, a dead agent's is over? -/
def Dev.localMay (d : Dev) (a hart : Nat) : Bool := !d.dead a && d.reaches a && (a ≠ 12 || d.host.running.contains hart)

/-- A hart's access to an LPDDR5X line, which the host shared cache serves as its home (R168). -/
def Dev.hostRequest (n : Nat) (r : HomeReq) (d : Dev) : Dev :=
  if d.backsOff 12 (agentNum 12) then d
  else match d.accepts 12 r.rq with
    | none => d.refuse 12 (agentNum 12)
    | some d => d.pushTxn n r

/-- An agent sends a request for a line that it lacks, unless one is outstanding. -/
def Dev.ask (d : Dev) (a n : Nat) (k : AgentReq) (rq : Rq) : Dev :=
  if (d.aline a n).req.isSome || !mayCache a n then d
  else
    let d := d.localRoom a n
    d.setAline a n { d.aline a n with req := some k, rq := rq }

/-- A local access completes in the ownership hold (R179). -/
def Dev.useCopy (d : Dev) (a n : Nat) : Dev :=
  let x := d.aline a n
  if x.hold then d.setAline a n { x with used := true } else d

/-- A local read (R173): a hit's bytes and their poison, which a host hart takes as an access fault (R315); or a request. -/
def Dev.localRead (a hart : Nat) (fetch : Bool) (n : Nat) (d : Dev) : Dev :=
  let x := d.aline a n
  if !d.localMay a hart || x.leaving then d
  else if a = 12 && isLp (64 * n) then d.hostRequest n (.hostRd (d.hartRq hart) hart fetch)
  else if x.st = .i then d.ask a n .rdShared (d.localRq a hart)
  else if a = 12 then (d.useCopy a n).hartGets hart fetch n x.data x.poison
  else (d.useCopy a n).emit (.line (agentNum a) n x.data x.poison)

/-- A local write (R173): a store into a poisoned line leaves the poison in place unless it covers the line (R176, R315). -/
def Dev.localWrite (a hart n : Nat) (m : Mask) (l : Line) (d : Dev) : Dev :=
  let x := d.aline a n
  if !d.localMay a hart || x.leaving then d
  else if a = 12 && isLp (64 * n) then d.hostRequest n (.hostWr (d.hartRq hart) m l)
  else match x.st with
    | .i => d.ask a n .rdOwn (d.localRq a hart)
    | .s => d.ask a n .claimOwn (d.localRq a hart)
    | _ => d.setAline a n (x.written m l)

/-! ### Timeouts and dead agents (R180, R183, R184) -/

/-- What a home does about the lines it shows a dead agent holding (R184). The agent's own copy is beyond reach. -/
def Dev.buryLine (d : Dev) (a n : Nat) : Dev :=
  let t := d.tag a n
  let d := if t = .e || t = .m then d.setPoison n true else d
  (d.setTag a n .i).setAline a n ALine.none

/-- Transactions at a home that wait for a dead agent wait for it no longer. -/
def Dev.buryTxns (d : Dev) (h a : Nat) : Dev :=
  let ns := ((d.coh.txns.filter fun t => t.home = h).map Txn.line).eraseDups
  let d := d.setCoh { d.coh with txns := d.coh.txns.map fun t =>
    if t.home = h then { t with awaiting := t.awaiting.erase a, owed := t.owed.erase a } else t }
  ns.foldl (fun d n => d.settleHome n) d

/-- A home knows that an agent is dead. -/
def Dev.tell (d : Dev) (h a : Nat) : Dev :=
  d.setCoh { d.coh with told := if d.coh.told.contains (h, a) then d.coh.told else d.coh.told ++ [(h, a)] }

/-- A home learns that an agent is dead. -/
def Dev.bury (h a : Nat) (d : Dev) : Dev :=
  if !d.dead a then d
  else
    let d := d.tell h a
    let ns := (d.coh.tags.filter fun x => x.1 % 16 = a && d.home (64 * (x.1 / 16)) = h).map (·.1 / 16)
    let d := ns.foldl (fun d n => d.buryLine a n) d
    (d.dropReservation h (agentNum a)).buryTxns h a

/-- A home declares an agent dead (R183, R184); Minuet's log tells. -/
def Dev.declareDead (d : Dev) (h a : Nat) : Dev :=
  let d := d.tell h a
  if d.dead a then d
  else (d.set fShcAgentDeadDead (d.get fShcAgentDeadDead + 2 ^ a)).log 2 (56 + h) noneByte 0 0 0 [a]

/-- A home's snoop timer runs out (R183). -/
def Dev.homeTimesOut (h n : Nat) (d : Dev) : Dev :=
  match d.firstTxn n with
  | none => d
  | some t =>
    let late := (t.awaiting ++ t.owed).eraseDups
    if t.home ≠ h || !t.started || late = [] then d
    else
      let d := (d.bump fShcHomeStatTimeouts 1 h).setPoison n true
      let d := late.foldl (fun d a => (d.declareDead h a).setTag a n .i) d
      let d := late.foldl (fun d a => d.setAline a n ALine.none) d
      late.foldl (fun d a => Dev.bury h a d) d

end Sys2Proof.Machine
end

