-- ==== Sys2Proof/Machine/Coherence.lean ====
section
/-! DEFINITION. The rows of the coherence protocol (07). -/

namespace Sys2Proof.Machine

open Sys2Proof

/-- RD_SHARED (R173). -/
def execRdShared (a : Fin 14) (line : BitVec 46) (s : State) : Out := s.live (Dev.agentRequest a.val line.toNat .rdShared)

/-- RD_OWN (R173). -/
def execRdOwn (a : Fin 14) (line : BitVec 46) (s : State) : Out := s.live (Dev.agentRequest a.val line.toNat .rdOwn)

/-- CLAIM_OWN (R173). -/
def execClaimOwn (a : Fin 14) (line : BitVec 46) (s : State) : Out := s.live (Dev.agentRequest a.val line.toNat .claimOwn)

/-- EVICT (R171, R173). -/
def execEvict (a : Fin 14) (line : BitVec 46) (s : State) : Out := s.live (Dev.agentDrop a.val line.toNat false)

/-- WRITE_BACK (R171, R173). -/
def execWriteBack (a : Fin 14) (line : BitVec 46) (s : State) : Out := s.live (Dev.agentDrop a.val line.toNat true)

/-- SNP_SHARED (R173, R174). -/
def execSnpShared (a : Fin 14) (line : BitVec 46) (s : State) : Out := s.live (Dev.snoopArrives a.val line.toNat false)

/-- SNP_INV (R173, R174). -/
def execSnpInv (a : Fin 14) (line : BitVec 46) (s : State) : Out := s.live (Dev.snoopArrives a.val line.toNat true)

/-- SNP_RESP (R174). -/
def execSnpResp (a : Fin 14) (line : BitVec 46) (s : State) : Out := s.live (Dev.responseArrives a.val line.toNat)

/-- DATA (R185). -/
def Dev.dataArrives (d : Dev) : DataDst → Dev
  | .agent a n => Dev.grantArrives a.val n.toNat d
  | .home a n => Dev.owedArrives a.val n.toNat d
  | .requester num n => Dev.requesterGets num.toNat n.toNat d
  | .remoteRead id v bad => Dev.remoteAnswer id.toNat v.toNat bad d

def execData (dst : DataDst) (s : State) : Out := s.live fun d => d.dataArrives dst

/-- DATA_REDIRECT (R214). -/
def execDataRedirect (who : Sender) (line : BitVec 46) (s : State) : Out := s.live (Dev.redirectArrives who line.toNat)

/-- STR_RD (R176). -/
def execStrRd (rq : Requester) (line : BitVec 46) (found : Finding) (s : State) : Out :=
  s.live (Dev.streamRequest rq line.toNat (.strRd rq found))

/-- STR_WR (R176). -/
def execStrWr (rq : Requester) (line : BitVec 46) (mask : Mask) (bytes : Line) (s : State) : Out :=
  s.live (Dev.streamRequest rq line.toNat (.strWr rq mask bytes))

/-- STR_ATOM (R177). -/
def execStrAtom (rq : Requester) (line : BitVec 46) (off : BitVec 6) (aop : BitVec 4) (wide : Bool) (v : W64) (c : W64)
    (s : State) : Out :=
  s.live (Dev.streamRequest rq line.toNat (.strAtom rq off.toNat aop.toNat wide v c))

/-- AGENT_LOCAL_READ (R173). -/
def execAgentLocalRead (a : LocalReader) (line : BitVec 46) (s : State) : Out :=
  s.live (Dev.localRead a.agent.val a.hart.val a.fetch line.toNat)

/-- AGENT_LOCAL_WRITE (R173). -/
def execAgentLocalWrite (a : LocalWriter) (line : BitVec 46) (mask : Mask) (bytes : Line) (s : State) : Out :=
  s.live (Dev.localWrite a.agent.val a.hart.val line.toNat mask bytes)

/-- AGENT_REPLACEMENT (R173). -/
def execAgentReplacement (a : Fin 14) (line : BitVec 46) (s : State) : Out := s.live (Dev.replace a.val line.toNat)

/-- OWNERSHIP_HOLD_EXPIRY (R179). -/
def execOwnershipHoldExpiry (a : Fin 14) (line : BitVec 46) (s : State) : Out := s.live (Dev.holdEnds a.val line.toNat)

/-- Does a home turn away a request that is sent: no entry, or no token (R180, R181, R306)? -/
def Dev.turnsAway (d : Dev) (h : Nat) (x : Asker) : Bool :=
  !d.backsOff h (senderNum x.who)
    && (d.accepts h { part := (x.part.map Fin.val).getD 48, ctx := none, quad := none, num := (senderNum x.who) }).isNone

/-- RETRY (R180, R333). -/
def execRetry (t : TurnedBy) (x : Asker) (s : State) : Out :=
  s.live fun d => match t with
    | .home h => if d.get fShcHomeCtlNackMode h.val = 0 && d.turnsAway h.val x then d.answerRetry h.val (senderNum x.who) else d
    | .remote id => d.remoteTurned id.toNat

/-- NACK (R181). -/
def execNack (home : Fin 13) (x : Asker) (s : State) : Out :=
  s.live fun d =>
    if d.get fShcHomeCtlNackMode home.val = 1 && d.turnsAway home.val x then d.answerNack home.val (senderNum x.who) else d

/-- NACK_BACKOFF_EXPIRY (R181): the requester may send again. -/
def execNackBackoffExpiry (home : Fin 13) (who : Sender) (s : State) : Out :=
  s.live fun d => d.setCoh { d.coh with backoff := d.coh.backoff.filter fun b => !(b.1 = home.val && b.2.1 = (senderNum who)) }

/-- RESERVATION_TIMEOUT (R180). -/
def execReservationTimeout (home : Fin 13) (who : Sender) (s : State) : Out :=
  s.live fun d => d.dropReservation home.val (senderNum who)

/-- HOME_TIMEOUT (R183). -/
def execHomeTimeout (home : Fin 13) (line : BitVec 46) (s : State) : Out := s.live (Dev.homeTimesOut home.val line.toNat)

/-- AGENT_DEAD_NOTICE (R184). -/
def execAgentDeadNotice (home : Fin 13) (a : Fin 14) (s : State) : Out := s.live (Dev.bury home.val a.val)

/-- SHC_HOME_CTL_WRITE (R182). -/
def execShcHomeCtlWrite (home : Fin 13) (v : W64) (s : State) : Out :=
  s.live fun d => d.setWord .shcHomeCtl home.val 0 (regWrite .shcHomeCtl false (d.word .shcHomeCtl home.val 0) v.toNat)

end Sys2Proof.Machine
end

