-- ==== Sys2Proof/Machine/Control.lean ====
section
/-! DEFINITION. Control instructions but BAR.UNIT (03 R87, R88), WAITRING (02 R49) and the completion of a ring fill (R48). -/

namespace Sys2Proof.Machine

open Sys2Proof

/-- NOP (R87). -/
def execNop (w : Who) (o : COp) (s : State) : Out :=
  s.live fun d => d.uniform w o.pr (fun _ _ _ => false) fun _ _ g => g

/-- A branch of the whole group when a condition on the effective and the active mask holds (R87). -/
def Dev.branch (d : Dev) (w : Who) (o : COp) (cond : Mask → Mask → Bool) : Dev :=
  d.issue w true [] (fun _ _ _ => false) fun c r g =>
    if cond (g.eff o.pr) g.active then d.jump w c r g (branchTarget g.pc o.offa) else d.putThr w c r g.step

/-- BRA.ANY (R87). -/
def execBraAny (w : Who) (o : COp) (s : State) : Out := s.live fun d => d.branch w o fun e _ => e != 0

/-- BRA.ALL (R87). -/
def execBraAll (w : Who) (o : COp) (s : State) : Out := s.live fun d => d.branch w o fun e a => e == a

/-- The entry SPLIT pushes: absolute addresses (R34, R87). An address below 0 is kept as one no code region holds. -/
def splitEntry (g : Grp) (o : COp) (t : Mask) : StackEntry :=
  let word (i : Int) : Nat := if i < 0 then 2 ^ 32 else i.toNat
  { saved := g.active, reconv := word (branchTarget g.pc o.offb), pendTarget := word (branchTarget g.pc o.offa), pendMask := t }

/-- SPLIT (R34, R35). -/
def execSplit (w : Who) (o : COp) (s : State) : Out :=
  s.live fun d => d.issue w false [] (fun _ _ _ => false) fun c r g =>
    let t := g.eff o.pr
    let n := g.active &&& ~~~t
    if t = 0 then d.putThr w c r g.step
    else if n = 0 then d.jump w c r g (branchTarget g.pc o.offa)
    else if g.stack.length ≥ r.hdr.maxDiverge then d.instError w c r g errReconvergence
    else d.putThr w c r { g with active := n, stack := splitEntry g o t :: g.stack, pc := g.pc + 1 }

/-- JOIN (R34, R57, R87): nothing when the effective mask is empty. -/
def execJoin (w : Who) (o : COp) (s : State) : Out :=
  s.live fun d => d.issue w false [] (fun _ _ _ => false) fun c r g =>
    if g.eff o.pr = 0 then d.putThr w c r g.step
    else if g.stack = [] then d.instError w c r g errIllegal
    else
      let g' := g.join
      d.jump w c r g' g'.pc

/-- CALL (R87). -/
def execCall (w : Who) (o : COp) (s : State) : Out :=
  s.live fun d => d.issue w true [] (fun _ _ _ => false) fun c r g =>
    if g.eff o.pr = 0 then d.putThr w c r g.step
    else d.jump w c r (g.setUreg (o.offb.toNat % 64) (BitVec.ofNat 64 (g.pc + 1))) (branchTarget g.pc o.offa)

/-- A branch to the address in register OFFB[5:0] (R87). -/
def Dev.branchReg (d : Dev) (w : Who) (o : COp) : Dev :=
  d.issue w true [] (fun _ _ _ => false) fun c r g =>
    if g.eff o.pr = 0 then d.putThr w c r g.step
    else d.jump w c r g ((g.ureg (o.offb.toNat % 64)).toNat : Int)

/-- RET (R87). -/
def execRet (w : Who) (o : COp) (s : State) : Out := s.live fun d => d.branchReg w o

/-- BRX (R87). -/
def execBrx (w : Who) (o : COp) (s : State) : Out := s.live fun d => d.branchReg w o

/-- What the exit of a whole group does on its core (R49, R82, R105): its arrays are released, its chains discarded, its
ring fills released. -/
def Run.groupExited (r : Run) (gi : Nat) : Run :=
  ({ r with arrays := r.arrays.map fun (x : ArrayRun) => if x.owner = some gi then x.discard else x }).settle

/-- EXIT (R34, R87, R88): the effective-mask threads exit; a lead thread ends. Exited groups count at every barrier
(R43). -/
def execExit (w : Who) (o : COp) (s : State) : Out :=
  s.live fun d => d.issue w true [] (fun _ _ _ => false) fun c r g =>
    let eff := g.eff o.pr &&& g.live
    if eff = 0 then d.putThr w c r g.step
    else
      let g' := g.exitThreads eff
      let r' := r.putThr w.thr g'
      if g'.sched = .exited then
        let r'' := if thrIsLead w.thr then r' else r'.groupExited (thrIndex w.thr)
        (d.setCore w.core.val { c with run := some r'' }).checkBarriers r''
      else d.jump w c r' g' g'.pc

/-- The release of the fill a group holds on a ring (R49). -/
def Run.releaseHeld (r : Run) (t : Thr) (g : Grp) (h : Nat) : Run :=
  let u := smapGet g.rings h RingUse.start
  (r.putThr t { g with rings := smapPut g.rings h { u with holds := none } }).settleRing h

/-- A WAITRING or WAITRING.REL (R49): only a consumer of the ring may. -/
def Dev.ringWait (d : Dev) (w : Who) (o : ROp) (body : Core → Run → Grp → Ring → Dev) : Dev :=
  d.issue w false [] (fun _ r _ => o.h.toNat ≥ r.hdr.rings.length) fun c r g =>
    if g.eff o.pr = 0 then d.putThr w c r g.step
    else match r.rings[o.h.toNat]? with
      | none => d
      | some x =>
        if thrIndex w.thr ≥ x.consumers then d.instError w c r g errIllegal else body c r g x

/-- WAITRING (R49, R89): release, then the slot offset of the fill at the consume index once it is FULL, or 0 and false
when it will never be made; u[UD] and p[PD] in every live thread. -/
def execWaitring (w : Who) (o : ROp) (s : State) : Out :=
  s.live fun d => d.ringWait w o fun c r g _ =>
    let h := o.h.toNat
    let r := r.releaseHeld w.thr g h
    match r.thr w.thr, r.rings[h]? with
    | some g, some x =>
      let f := (smapGet g.rings h RingUse.start).consume
      if x.full f then
        let g := { g with rings := smapPut g.rings h { consume := f + 1, holds := some f } }
        d.putThr w c r ((g.setUreg o.ud.toNat (BitVec.ofNat 64 (x.slotOff f))).setPred o.pd.toNat g.live maskAll).step
      else if r.neverFilled h f then
        d.putThr w c r ((g.setUreg o.ud.toNat 0).setPred o.pd.toNat g.live 0).step
      else d.stall w c r g (.ring h)
    | _, _ => d

/-- WAITRING.REL (R49): releases only. -/
def execWaitringRel (w : Who) (o : ROp) (s : State) : Out :=
  s.live fun d => d.ringWait w o fun c r g _ =>
    let r := r.releaseHeld w.thr g o.h.toNat
    match r.thr w.thr with
    | some g => d.putThr w c r g.step
    | none => d

/-- A fill's bytes into its slot (R48, R89): rows packed in order, bytes beyond them unchanged. -/
def Run.fillArrives (r : Run) (h f : Nat) : Run :=
  match r.rings[h]? with
  | none => r
  | some x =>
    match x.fills.find? fun y => y.num = f && !y.arrived with
    | none => r
    | some y =>
      let x' : Ring := { x with fills := x.fills.map fun z => if z.num = f then { z with arrived := true } else z }
      { r with scratch := memWrite r.scratch (x.slotOff f) y.bytes, rings := r.rings.set h x' }

/-- ISSUE_SLOT_TAKE (R29): with fewer than 8 groups active, the PENDING-READY group that became ready earliest, lowest rank
first, becomes ACTIVE. -/
def execIssueSlotTake (core : Fin 768) (s : State) : Out :=
  s.live fun d =>
    let c := d.core core.val
    match c.run with
    | none => d
    | some r =>
      if c.stopped || (r.groups.countP fun x => x.2.sched = .active) ≥ 8 then d
      else match earliest (fun g => g.sched = .pendingReady) r.groups with
        | none => d
        | some (gi, g) =>
          d.setCore core.val { c with run := some { r with groups := smapPut r.groups gi { g with sched := .active } } }

end Sys2Proof.Machine
end

