-- ==== Sys2Proof/Machine/Faults.lean ====
section
/-! DEFINITION. The meanings of the fault commands (15 R361, 16). -/

namespace Sys2Proof.Machine

open Sys2Proof

/-- PLL_LOCK_LOSS (R361). -/
def execPllLockLoss (n : Fin 69) (s : State) : Out := s.live (Dev.pllLost n.val)

/-- TILE_DIE_FAULT (R370). -/
def execTileDieFault (n : Fin 56) (s : State) : Out := s.live (Dev.tileFault n.val)

/-- ISOLATE_TIMEOUT (R370). -/
def execIsolateTimeout (n : Fin 56) (s : State) : Out := s.live (Dev.isolateLate n.val)

/-- HOST_CORE_FAULT (R368). -/
def execHostCoreFault (h : Fin 96) (s : State) : Out := s.live (Dev.hostFault h.val)

/-- SHARED_DIE_FAULT (R368). -/
def execSharedDieFault (f : SharedFault) (s : State) : Out := s.live (Dev.sharedFault f)

/-- DEVICE_WARM_RESET (R375): causes 1 to 5. -/
def execDeviceWarmReset (cause : BitVec 4) (n : BitVec 7) (agents : BitVec 14) (s : State) : Out :=
  s.live fun d =>
    if 1 ≤ cause.toNat && cause.toNat ≤ 5 then
      d.warmNow cause.toNat (if n.toNat < 69 then n.toNat else noSite) agents.toNat
    else d

end Sys2Proof.Machine
end

