-- ==== Sys2Proof/Machine/Floor.lean ====
section
/-! DEFINITION. The meanings of the floor's commands: links, lasers, REF, the test access controllers (15). -/

namespace Sys2Proof.Machine

open Sys2Proof

/-- Is it direction BA? -/
def dirBa : Dir → Bool
  | .ab => false
  | .ba => true

/-- CHASSE_FLIT (R350, R351). -/
def execChasseFlit (e : Fin 120) (dir : Dir) (x : Flit) (s : State) : Out :=
  s.live (Dev.chasseFlit e.val (dirBa dir) x.seq.toNat x.crcOk)

/-- CHASSE_RETRAIN (R351). -/
def execChasseRetrain (e : Fin 120) (dir : Dir) (cause : RetrainCause) (s : State) : Out :=
  s.live (Dev.retrainFor e.val (dirBa dir) cause)

/-- CHASSE_RETRAIN_COMPLETE (R352). -/
def execChasseRetrainComplete (e : Fin 120) (failedAb failedBa : List (Fin 1584)) (s : State) : Out :=
  s.live (Dev.retrainDone e.val (failedAb.map Fin.val) (failedBa.map Fin.val))

/-- LASER_LOSS (R357). -/
def execLaserLoss (bank : Fin 4) (laser : Fin 10) (s : State) : Out := s.live (Dev.laserLost bank.val laser.val)

/-- PROMENADE_SCHEDULE_CHANGE (R355). -/
def execPromenadeScheduleChange (s : State) : Out := s.live Dev.installSchedule

/-- REF_LOSS (R361). -/
def execRefLoss (s : State) : Out := s.always (Dev.refAbsent true)

/-- REF_RETURN (R361). -/
def execRefReturn (s : State) : Out := s.always (Dev.refAbsent false)

/-- REF_HOLDOVER_EXPIRY (R361). -/
def execRefHoldoverExpiry (s : State) : Out := s.live Dev.refExpired

/-- ISOLATE_RESET (R362). -/
def execIsolateReset (n : Fin 56) (s : State) : Out := s.test (Dev.isolateReset n.val)

/-- IDCODE (R363). -/
def execIdcode (s : State) : Out := s.always fun d => (d.moduleIr 0x01).tdo (idcodeOf 0x4856)

/-- SAMPLE/PRELOAD (R363). -/
def execSamplePreload (pins : BitVec 16) (s : State) : Out := s.always (Dev.sample pins)

/-- EXTEST (R364). -/
def execExtest (s : State) : Out := s.always Dev.extest

/-- SELECT_DIE (R364). -/
def execSelectDie (v : Byte) (s : State) : Out := s.test (Dev.selectDie v.toNat)

/-- BYPASS (R363). -/
def execBypass (s : State) : Out := s.always fun d => d.moduleIr irBypass

/-- The dies' IDCODE (R363). -/
def execDieIdcode (s : State) : Out := s.test (Dev.onDie fun n d => (d.dieIr 0x01).tdo (dieIdcodeOf n))

/-- STANDALONE (R365): writing 0 does nothing, for the die leaves only by a reset. -/
def execStandalone (enter : Bool) (s : State) : Out :=
  s.test (Dev.onDie fun n d => if enter then (d.dieIr 0x20).enterTest n else d.dieIr 0x20)

/-- LOOPBACK (R365). -/
def execLoopback (v : W64) (s : State) : Out := s.test (Dev.onDie fun n d => (d.dieIr 0x21).loopWrite v.toNat n)

/-- LOOPBACK_RUN_DONE (R365). -/
def execLoopbackRunDone (errors : W32) (s : State) : Out := s.test (Dev.loopDone errors.toNat)

/-- BIST (R363). -/
def execBist (_ : BitVec 16) (map : BitVec 16) (s : State) : Out := s.test (Dev.onDie (Dev.bistRun map))

/-- HBM1500 (R363, R365). -/
def execHbm1500 (v : BitVec 2) (s : State) : Out := s.test (Dev.onDie (Dev.wrapper v))

/-- The dies' BYPASS (R363). -/
def execDieBypass (s : State) : Out := s.test (Dev.onDie fun _ d => d.dieIr irBypass)

/-- FLR_TEST_CTL_WRITE (R364). -/
def execFlrTestCtlWrite (v : W64) (s : State) : Out := s.test (Dev.writeTestCtl v.toNat)

end Sys2Proof.Machine
end

