-- ==== Sys2Proof/Machine/CapOps.lean ====
section
/-! DEFINITION. The Flozen Capability Table and the partition capability view (19 R413 to R418). -/

namespace Sys2Proof.Machine

open Sys2Proof

/-! ### Headers (R413) -/

/-- A word of a header: partition number, service level, descriptors, core records. -/
def Dev.capHeader (d : Dev) (part level descs cores w : Nat) : Nat :=
  if w = 0 then 0x46434150 + 2 ^ 32
  else if w = 1 then d.minuet.generation % 2 ^ 32 + (if d.variantB then 2 ^ 32 else 0) + level * 2 ^ 33 + part * 2 ^ 34
  else if w = 2 then d.lpUsable
  else if w = 3 then 1530 * gib
  else if w = 4 then
    (if level = 1 then 12288 + 20000 * 2 ^ 16 else 6144) + descs * 2 ^ 32 + cores * 2 ^ 48
  else 0

/-! ### Core records (R415) -/

def Dev.coreRecord (d : Dev) (k : Nat) : Nat :=
  let c := d.core k
  let w (i : Nat) : Nat := (c.arrayWidths[i]?).getD 0
  (if c.withdrawn then 0 else c.lanes) + c.arrayWidths.length * 2 ^ 5 + w 0 * 2 ^ 8 + w 1 * 2 ^ 14 + w 2 * 2 ^ 20 + w 3 * 2 ^ 26

/-! ### Unit descriptors (R417) -/

/-- A descriptor's fields. -/
structure UnitDesc where
  id : Nat
  kind : Nat
  degraded : Bool
  parent : Nat
  children : Nat
  part : Nat
  tile : Nat
  site : Nat
  gang : Nat
  cores : Nat
  tiles : Nat
  deriving DecidableEq, Repr

def UnitDesc.word (u : UnitDesc) (w : Nat) : Nat :=
  if w = 0 then u.id + u.kind * 2 ^ 32 + (if u.degraded then 2 ^ 35 else 0)
  else if w = 1 then u.parent + u.children * 2 ^ 32
  else if w = 2 then u.part + u.tile * 2 ^ 6 + u.site * 2 ^ 12 + u.gang * 2 ^ 19
  else u.cores + u.tiles * 2 ^ 16

def noParent : Nat := 0xFFFFFFFF

/-- Cores that are not withdrawn. -/
def Dev.liveCores (d : Dev) (ks : List Nat) : Nat := ks.countP fun k => !(d.core k).withdrawn

/-- A node with no tile, site or gang. -/
def UnitDesc.node (id kind parent children part cores tiles : Nat) : UnitDesc :=
  { id := id, kind := kind, degraded := false, parent := parent, children := children, part := part, tile := 63, site := 127,
    gang := 31, cores := cores, tiles := tiles }

/-- A cluster and its cores. -/
def Dev.clusterTree (d : Dev) (part t k : Nat) : List UnitDesc :=
  let id := 0x1000 + 4 * t + k
  let cs := (List.range 4).map fun i => 16 * t + 4 * k + i
  { UnitDesc.node id 1 (0x2000 + t) 4 part (d.liveCores cs) 0 with tile := t }
    :: cs.map fun c => { UnitDesc.node c 0 id 0 part (d.liveCores [c]) 0 with tile := t }

/-- A tile, its clusters and their cores. A tile whose site failed has none. -/
def Dev.tileTree (d : Dev) (parent part t : Nat) : List UnitDesc :=
  let site := match d.siteOf t with
    | some n => if d.siteState n = siteFailed then 127 else n
    | none => 127
  let live := d.liveCores (tileCores t)
  { UnitDesc.node (0x2000 + t) 2 parent 4 part live 1 with tile := t, site := site, degraded := live ≠ 16 }
    :: (List.range 4).flatMap (d.clusterTree part t)

/-- The gangs whose parent is gang j. -/
def Dev.childGangs (d : Dev) (p j : Nat) : List Nat :=
  (List.range 16).filter fun i => d.gangValid p i && d.gangParent p i = some j

/-- A gang, its tiles and its gangs, to a depth of at most n. -/
def Dev.gangTree (d : Dev) (p : Nat) : Nat → Nat → Nat → List UnitDesc
  | 0, _, _ => []
  | n + 1, parent, j =>
    let id := 0x3000 + 16 * p + j
    let ts := bitsBelow 48 (d.gangTilesOwn p j)
    let gs := d.childGangs p j
    let all := d.gangTiles p j
    { UnitDesc.node id 3 parent (ts.length + gs.length) p (d.liveCores (all.flatMap tileCores)) all.length with gang := j }
      :: (ts.flatMap (d.tileTree id p) ++ gs.flatMap (Dev.gangTree d p n id))

/-- A partition's subtree from its root: tiles outside every gang come before the gangs. -/
def Dev.partTree (d : Dev) (parent p : Nat) : List UnitDesc :=
  let id := 0x4000 + p
  let gs := (List.range 16).filter fun j => d.gangValid p j && (d.gangParent p j).isNone
  let ganged := (List.range 16).flatMap fun j => if d.gangValid p j then bitsBelow 48 (d.gangTilesOwn p j) else []
  let ts := (d.tiles p).filter fun t => !ganged.contains t
  UnitDesc.node id 4 parent (ts.length + gs.length) p (d.liveCores ((d.tiles p).flatMap tileCores)) (d.tiles p).length
    :: (ts.flatMap (d.tileTree id p) ++ gs.flatMap (d.gangTree p 16 id))

/-- The device table's descriptors. -/
def Dev.deviceTree (d : Dev) : List UnitDesc :=
  let ts := (List.range 48).filter fun t => (d.tilePart t).isNone
  let ps := (List.range 48).filter fun p => d.partState p ≠ partFree
  let live := d.liveCores (List.range 768)
  UnitDesc.node 0x5001 6 noParent 1 63 live 48 :: UnitDesc.node 0x5000 5 0x5001 (ts.length + ps.length) 63 live 48
    :: (ts.flatMap (d.tileTree 0x5000 63) ++ ps.flatMap (d.partTree 0x5000))

/-! ### The tables as memory -/

/-- Word i of a list of descriptors. -/
def treeWord (us : List UnitDesc) (i : Nat) : Nat :=
  match us[i / 4]? with
  | some u => u.word (i % 4)
  | none => 0

/-- The Capability Table at an aligned offset: before bring-up reaches walk-through it has not been written. -/
def Dev.capTable (d : Dev) (off : Nat) : Nat :=
  let stage := d.get fMntBootStatStage
  if stage ≠ 4 && stage ≠ 5 then 0
  else if off < 0x100 then d.capHeader 63 (if stage = 5 then 1 else 0) d.deviceTree.length 768 (off / 8)
  else if off < 0x10000 then treeWord d.deviceTree ((off - 0x100) / 8)
  else if off < 0x10000 + 8 * 768 then d.coreRecord ((off - 0x10000) / 8)
  else 0

/-- A partition's view at an aligned offset of its page, from 0x4000 up. -/
def Dev.capView (d : Dev) (p off : Nat) : Nat :=
  let us := if d.partState p = partFree then [] else d.partTree noParent p
  let ts := if d.partState p = partFree then [] else d.tiles p
  if off < 0x4100 then d.capHeader p (d.get fPrtServiceLevel p) us.length (16 * ts.length) ((off - 0x4000) / 8)
  else if off < 0xE000 then treeWord us ((off - 0x4100) / 8)
  else
    let i := (off - 0xE000) / 8
    match ts[i / 16]? with
    | some t => d.coreRecord (16 * t + i % 16)
    | none => 0

end Sys2Proof.Machine
end

