-- ==== Sys2Proof/Machine/Windows.lean ====
section
/-! DEFINITION. Translation, the fault queue and remote windows: the rows of 09. -/

namespace Sys2Proof.Machine

open Sys2Proof

/-- WALK_COMPLETE (R219, R223, R225, R226). -/
def execWalkComplete (tile : Fin 49) (ctx : BitVec 12) (page : BitVec 45) (s : State) : Out :=
  s.live (Dev.walkEnds tile.val ctx.toNat page.toNat)

/-- FAULT_ENTRY_FREED (R226): the fault that began to wait earliest takes its record, if an entry is free. -/
def execFaultEntryFreed (p : Fin 48) (s : State) : Out := s.live (Dev.fqDrain p.val 1)

/-- XLT_FQ_RESOLVE with VERDICT RETRY (R227). -/
def execXltFqResolveRetry (p : Fin 48) (record : W32) (s : State) : Out := s.live (Dev.resolveRetry p.val record.toNat)

/-- XLT_FQ_RESOLVE with VERDICT FAIL (R227). -/
def execXltFqResolveFail (p : Fin 48) (record : W32) (s : State) : Out := s.live (Dev.resolveFail p.val record.toNat)

/-- XLT_FQ_CONS_WRITE (R228). -/
def execXltFqConsWrite (p : Fin 48) (cons : W32) (s : State) : Out := s.live (Dev.writeCons p.val cons.toNat)

/-- A piece admitted through a window whose entry is replaced (R231). -/
def Segment.outdate (window : Nat) (x : Segment) : Segment := if x.window = window then { x with stale := true } else x

/-- XLT_WIN_INVAL (R231): cached copies are dropped, pieces admitted through the old entry are the ones to wait for, and BUSY reads 1. -/
def Dev.winInval (window : Nat) (d : Dev) : Dev :=
  (d.setReel { d.reel with
    winCache := smapDel d.reel.winCache window
    arrivals := d.reel.arrivals.map fun x => { x with waiting := x.waiting.map (Segment.outdate window) } }).set fXltWinStatBusy 1

def execXltWinInval (window : BitVec 16) (s : State) : Out := s.live (Dev.winInval window.toNat)

/-- WINDOW_INVAL_DRAINED (R231): accesses are performed whole as they arrive, but for pieces that wait to be added: while one admitted under
an old entry does, BUSY stays. -/
def Dev.winDrained (d : Dev) : Dev :=
  if d.reel.arrivals.any fun x => x.waiting.any Segment.stale then d else d.set fXltWinStatBusy 0

def execWindowInvalDrained (s : State) : Out := s.live Dev.winDrained

/-- REMOTE_WINDOW_ACCESS (R230, R336). -/
def execRemoteWindowAccess (src : BitVec 12) (window : BitVec 16) (off : W64) (key : W32) (op : RemoteOp) (id : W32)
    (s : State) : Out :=
  s.live (Dev.remoteAccess src.toNat window.toNat off.toNat key.toNat op id.toNat)

/-- REMOTE_ACCESS_ACK (R336, R337). -/
def execRemoteAccessAck (id : W32) (s : State) : Out := s.live (Dev.remoteAcked id.toNat)

/-- WINDOW_ACCESS_REFUSED (R230, R338). -/
def execWindowAccessRefused (id : W32) (s : State) : Out := s.live (Dev.accessRefused id.toNat)

end Sys2Proof.Machine
end

