-- ==== Sys2Proof/Machine/RegOps.lean ====
section
/-! DEFINITION. Reads and writes of registers by address (00 R7 to R11, R434, 19 R410 to R419), the Ulitum Link (13 R317 to R322),
and what a host hart may reach (R313, R314). -/

namespace Sys2Proof.Machine

open Sys2Proof

/-! ### The Ulitum Link (R318, R320, R321) -/

def ulkTraining : Nat := 1

def Dev.linkUp (d : Dev) : Bool := d.get fUlkStatState = ulkUp

/-- Messages under way from the companion, and to it. -/
def CohMsg.fromAgent (a : Nat) : CohMsg → Bool
  | .resp _ b _ _ _ => b = a
  | .toHome _ b _ _ => b = a
  | _ => false

def CohMsg.toAgent (a : Nat) : CohMsg → Bool
  | .snp _ b _ => b = a
  | .grant _ b _ _ _ _ => b = a
  | _ => false

/-- An interrupt for the companion, which is sent again after training (R320). -/
def Emission.msi? : Emission → Option (Nat × Nat)
  | .companion 7 v => some (7, v)
  | _ => none

/-- The link goes down and trains: agent 13 is dead at once, what the companion sent and the link had not delivered is lost. -/
def Dev.linkDown (d : Dev) : Dev :=
  if !d.linkUp then d
  else
    let d := (d.set fUlkStatState ulkTraining).bump fUlkStatRetrains 1
    let u := d.host.ulk
    let d := d.setUlk { expect := 0, acked := 0, replays := 0, next := 0, buffer := [], held := [],
                        owed := u.owed ++ (u.buffer.map (·.2) ++ u.held).filterMap Emission.msi? }
    let d := d.setCoh { d.coh with msgs := d.coh.msgs.filter fun m => !m.fromAgent 13 }
    (d.declareDead 12 13).log 6 68 noneByte 0 0 0 []

/-- Messages that waited for room in the retry buffer leave, in their order. -/
def Dev.sendHeld : Nat → Dev → Dev
  | 0, d => d
  | n + 1, d =>
    match d.host.ulk.held with
    | [] => d
    | m :: rest =>
      if retryFlits ≤ d.host.ulk.buffer.length then d
      else
        let u := d.host.ulk
        Dev.sendHeld n ((d.setUlk { u with
          held := rest, next := (u.next + 1) % 1024, buffer := u.buffer ++ [(u.next, m)] }).emit m)

/-- An acknowledgement (R318): the flits up to its number leave the retry buffer (DEDUCED, log 127). -/
def Dev.flitsAcked (d : Dev) (ack : Nat) : Dev :=
  let u := d.host.ulk
  let d := if u.buffer.any (fun x => x.1 = ack) then
      d.setUlk { u with acked := ack, buffer := (u.buffer.dropWhile fun x => x.1 ≠ ack).drop 1 }
    else d
  Dev.sendHeld d.host.ulk.held.length d

/-- A flit arrives (R318): one whose CRC fails is discarded, to be replayed. -/
def Dev.flit (seq ack : Nat) (ok : Bool) (corrected : Nat) (d : Dev) : Dev :=
  if !d.linkUp then d
  else
    let d := d.bump fUlkErrFecCorr corrected
    let u := d.host.ulk
    if !ok then
      ((d.bump fUlkErrReplays 1).bump fUlkErrFecUncorr 1).setUlk { u with replays := min 8 (u.replays + 1) }
    else if seq = u.expect then (d.setUlk { u with expect := (seq + 1) % 1024, replays := 0 }).flitsAcked ack
    else d

/-- A flit has been replayed 8 times. -/
def Dev.replayLimit (d : Dev) : Dev := if d.host.ulk.replays < 8 then d else d.linkDown

/-- May the companion have this allowance (R321)? -/
def allowed (setsLog2 ways : Nat) : Bool := ways ≤ 32 && 2 ^ setsLog2 * ways * 64 ≤ 33554432

/-- Agent 13 is revived with no lines held. -/
def Dev.reviveCompanion (d : Dev) : Dev :=
  let d := (List.range 13).foldl (fun d h => Dev.bury h 13 d) d
  let d := d.setCoh { d.coh with msgs := d.coh.msgs.filter fun m => !m.fromAgent 13 && !m.toAgent 13 }
  let d := d.setCoh { d.coh with told := d.coh.told.filter fun x => x.2 ≠ 13 }
  let v := d.get fShcAgentDeadDead
  if v.testBit 13 then d.set fShcAgentDeadDead (v - 2 ^ 13) else d

/-- Training ends: the allowance is declared, the link is UP, what was owed to the companion is sent. -/
def Dev.allowance (setsLog2 ways : Nat) (half upper : Bool) (d : Dev) : Dev :=
  if d.get fUlkStatState ≠ ulkTraining then d
  else
    let ok := allowed setsLog2 ways
    let d := d.reviveCompanion
    let d := (d.set fUlkStatHalf (if half then 1 else 0)).set fUlkStatUpper (if half && upper then 1 else 0)
    let d := (d.set fUlkStatSetsLog2 (if ok then setsLog2 else 0)).set fUlkStatWays (if ok then ways else 0)
    let d := (d.set fUlkStatAllowRefused (if ok then 0 else 1)).set fUlkStatState ulkUp
    let owed := d.host.ulk.owed
    owed.foldl (fun d x => d.toCompanion (.companion x.1 x.2)) (d.setUlk { d.host.ulk with owed := [] })

/-- The echo of a time mark (R329). -/
def companionEcho : Nat := 8

def Dev.mark (id comp p : Nat) (d : Dev) : Dev :=
  if d.partState p ≠ partActive then d
  else (d.setWord .prtTmark0 p 0 comp).setWord .prtTmark1 p 0 ((d.part p).cycles.toNat % 2 ^ 56 + id * 2 ^ 56)

def Dev.timeMark (id comp : Nat) (d : Dev) : Dev :=
  if !d.linkUp then d
  else ((List.range 48).foldl (fun d p => d.mark id comp p) d).toCompanion (.companion companionEcho id)

/-! ### Single registers -/

/-- PRT_INT_FAULT, PRT_INT_FENCE (R316). -/
def Dev.writeInt (p : Nat) (fence : Bool) (v : Nat) (d : Dev) : Dev :=
  let r := if fence then Reg.prtIntFence else Reg.prtIntFault
  if !v.testBit 1 && !(d.hcores p).contains (natBitsAt v 2 7) then d
  else d.setWord r p 0 (regWrite r false (d.word r p 0) v)

/-- ULK_XW_BASE, ULK_XW_FLAGS (R324): ignored while ENABLE is 1. -/
def Dev.writeXw (flags : Bool) (v : Nat) (d : Dev) : Dev :=
  let r := if flags then Reg.ulkXwFlags else Reg.ulkXwBase
  if d.xwOn then d else d.setWord r 0 0 (regWrite r false (d.word r 0 0) v)

/-- ULK_CTL (R320). -/
def Dev.writeUlkCtl (v : Nat) (d : Dev) : Dev := if v.testBit 0 then d.linkDown else d

/-- Is a register's RWL part locked (R7, R210, R305)? The rows 48 lock while any partition is active. -/
def Dev.locked (d : Dev) (r : Reg) (a b : Nat) : Bool :=
  if (regInfo r).part then d.partState a ≠ partFree
  else if r = .prtBw || r = .shcWays then
    (if b < 48 then d.partState b ≠ partFree else (List.range 48).any fun p => d.partState p ≠ partFree)
  else false

/-- The bits that are not RES0 in this instance or word (R8): a bridge slice has 15 ways (R210); PARENT of a gang below the root is none. -/
def instanceBits (r : Reg) (a v : Nat) : Nat :=
  if r = .shcWays && a < 12 then v % 2 ^ 15
  else if r = .prtGang && v.testBit 52 then natSetBits v 48 4 0
  else v

/-- A write by the access types alone (R7, R8, R10). -/
def Dev.plainWrite (d : Dev) (r : Reg) (a b v : Nat) : Dev :=
  let locked := d.locked r a b
  let d := d.setWord r a b (regWrite r locked (d.word r a b) (instanceBits r a v))
  if locked then d else { d with written := insertNat d.written (regKey r a b) }

/-- HBM_RAS_CTL (R202): the remaps' repairs follow PPR_AT_RESET. -/
def Dev.writeRas (v : Nat) (d : Dev) : Dev :=
  let d := d.plainWrite .hbmRasCtl 0 0 v
  let on := d.get fHbmRasCtlPprAtReset = 1
  let repair (r : Remap) : Remap := { r with ppr := on }
  (d.setHbm { d.hbm with remaps := d.hbm.remaps.map repair }).showRemaps

/-- TMP_BEATSn from Minuet (R302): a word that fits takes effect at the next boundary. -/
def Dev.writeBeats (n v : Nat) (d : Dev) : Dev :=
  let w := beatsWord n v
  if d.beatsFit n w then d.setTempo { d.tempo with beats := smapPut d.tempo.beats n (BitVec.ofNat 64 w) } else d

/-- MNT_WDOG_CTLc from Minuet (R382, R10). -/
def Dev.writeWdog (c v : Nat) (d : Dev) : Dev :=
  let x := natBitsAt v 0 7
  if 1 ≤ x && x ≤ 100 then d.setWord .mntWdogCtl c 0 x else d

/-- The bits of PRT_NEAR_PF_MASKj that stand for cores the partition holds (R162). -/
def Dev.heldCores (d : Dev) (p j : Nat) : Nat := 2 ^ min 64 (16 * (d.tiles p).length - 64 * j) - 1

def Source.isMinuet : Source → Bool
  | .minuet => true
  | _ => false

def Source.isCompanion : Source → Bool
  | .companion _ => true
  | _ => false

/-- A write of a register, by its own rule where it has one. -/
def Dev.writeReg (src : Source) (r : Reg) (a b v : Nat) (d : Dev) : Dev :=
  match r with
  | .prtCtl => d.writePrtCtl a v
  | .clrQctl => d.writeQctl a v
  | .clrFencePost => d.fencePost a (natBitsAt v 0 12) (natBitsAt v 16 16)
  | .clrQRange => d.writeBlock a false v
  | .clrCtxRange => d.writeBlock a true v
  | .xltFqResolve => d.writeResolve a v
  | .xltFqCons => d.writeCons a (natBitsAt v 0 32)
  | .xltWinInval => d.winInval (natBitsAt v 0 16)
  | .prtIntFault => d.writeInt a false v
  | .prtIntFence => d.writeInt a true v
  | .prtAttestCtl => if v.testBit 0 then d.attest a else d
  | .mtrSnapCtl => d.writeSnap v
  | .hbmFwMap => d.writeFwMap a v
  | .hbmReplPair => d.writePair a v
  | .hbmRasCtl => d.writeRas v
  | .ulkCtl => d.writeUlkCtl v
  | .ulkXwBase => d.writeXw false v
  | .ulkXwFlags => d.writeXw true v
  | .mntMboxCmd => if Source.isCompanion src then d.writeMbox v else d
  | .flrTestCtl => if Source.isCompanion src then d.writeTestCtl v else d
  | .cutWearCtl => if Source.isCompanion src then d.plainWrite .cutWearCtl 0 0 v else d
  | .shcPfCtl => if Source.isMinuet src then d else d.plainWrite .shcPfCtl a b v
  | .mntNegDrv => d.writeNeg a v
  | .relModuleId => if d.get fXltWinBaseEnable = 1 then d else d.plainWrite .relModuleId 0 0 v
  | .tmpBeats => if Source.isMinuet src then d.writeBeats a v else d
  | .mntWdogCtl => if Source.isMinuet src then d.writeWdog a v else d
  | .prtNearPfMask =>
    let held := d.heldCores a b
    d.plainWrite r a b ((v &&& held) ||| ((regRead r (d.word r a b)) &&& (held ^^^ (2 ^ 64 - 1))))
  | r => d.plainWrite r a b v

/-! ### Reads -/

/-- Lines that wait for an instance's internal beats: carve-out scrub, remap copy, shadow copy. -/
def Dev.backlogLines (d : Dev) (n : Nat) : Nat :=
  let scrub := ((d.tempo.scrubs.filter fun x => x.inst = n).map fun x =>
    (16777216 - x.next) / max 1 (d.unitDies x.unit).length).sum
  let remap := ((d.hbm.remaps.filter fun r => stackBridge r.stack = n).map fun r => 2 * (1024 - r.copied)).sum
  let copying := d.allCmds.flatMap fun x => x.2.outputs.flatMap fun o => o.shadows.filter Shadow.copying
  let shadow := (copying.map fun x => (granuleLines x.new).countP fun l => d.home (64 * l) = n).sum
  scrub + remap + shadow

/-- TMP_STATn (R304). -/
def Dev.tmpStat (d : Dev) (n : Nat) : Nat :=
  let w := natSetBits (d.word .tmpStat n 0) 0 20 (tenantTokens n (beatSum (d.word .tmpBeats n 0)))
  natSetBits w 22 26 (min (2 ^ 26 - 1) ((d.backlogLines n + beatLines n - 1) / beatLines n))

/-- SHC_HOME_STATn (R185). -/
def Dev.homeStat (d : Dev) (n : Nat) : Nat :=
  natSetBits (natSetBits (d.word .shcHomeStat n 0) 0 9 (min 256 (d.txnsAt n))) 16 16 (min 0xFFFF (d.reserved n).length)

/-- SHF_TEST_OUT (R141, R142). -/
def Dev.shuffleTest (d : Dev) : Nat :=
  let key := BitVec.ofNat 64 (d.word .shfTestKey 0 0)
  let i := d.word .shfTestIn 0 0
  if d.get fShfTestCtlMode = 1 then (shuffleMix key).toNat
  else (shuffleOut key (natBitsAt i 58 6) (BitVec.ofNat 58 i)).toNat

/-- What a register reads (R7). -/
def Dev.readReg (d : Dev) (r : Reg) (a b : Nat) : Nat :=
  match r with
  | .tmpStat => d.tmpStat a
  | .shcHomeStat => d.homeStat a
  | .shfTestOut => d.shuffleTest
  | .prtNearPfMask => regRead r (d.word r a b) &&& d.heldCores a b
  | r => regRead r (d.word r a b)

/-! ### Addresses (R410 to R412) -/

def pageBase : Nat := 0xFD00000000000
def doorBase : Nat := 0xFE00000000000
def deviceBase : Nat := 0xFF00000000000

def isPage (addr : Nat) : Bool := pageBase ≤ addr && addr < pageBase + 48 * 65536
def isDoor (addr : Nat) : Bool := doorBase ≤ addr && addr < doorBase + 16384 * 4096
def isDevice (addr : Nat) : Bool := deviceBase ≤ addr && addr < deviceBase + 268435456

/-- A 64-bit word of the partition pages and the device control space; 0 where nothing is assigned (R9). -/
def Dev.readSpace (d : Dev) (addr : Nat) : Nat :=
  if addr % 8 ≠ 0 then 0
  else match regAt addr with
    | some (r, a, b) => d.readReg r a b
    | none =>
      if isDevice addr && addr - deviceBase < 0x100000 then d.capTable (addr - deviceBase)
      else if isPage addr && 0x4000 ≤ (addr - pageBase) % 65536 then
        d.capView ((addr - pageBase) / 65536) ((addr - pageBase) % 65536)
      else 0

/-- A write there: nothing happens where no register lies. -/
def Dev.writeSpace (src : Source) (addr v : Nat) (d : Dev) : Dev :=
  if addr % 8 ≠ 0 then d
  else match regAt addr with
    | some (r, a, b) => d.writeReg src r a b v
    | none => d

/-- The completion of a configuration write, which a link that the write itself took down does not carry. -/
def Dev.complete (d : Dev) : Dev := if d.linkUp then d.toCompanion .completion else d

/-- The companion's configuration accesses (R322), while the link is UP: outside the two spaces a read is poisoned, a write
discarded, and each is logged (R411). -/
def Dev.configRead (addr : Nat) (d : Dev) : Dev :=
  if !d.linkUp then d
  else if isPage addr || isDevice addr then d.toCompanion (.answer (d.readSpace addr) false)
  else (d.log 12 noneByte noneByte 0 0 addr []).toCompanion (.answer 0 true)

def Dev.configWrite (addr v : Nat) (d : Dev) : Dev :=
  if !d.linkUp then d
  else (if isPage addr || isDevice addr then d.writeSpace (.companion none) addr v
    else d.log 12 noneByte noneByte 0 0 addr []).complete

/-- May a hart make this access (R314, R412)? Its own partition's page and the doorbell pages only in aligned 64-bit words. -/
def Dev.hartMay (d : Dev) (h addr : Nat) (aligned : Bool) : Bool :=
  isMemory addr || (isDoor addr && aligned)
    || (isPage addr && aligned && d.hartPart h = some ((addr - pageBase) / 65536))

/-- A write to a register or doorbell by any of the three (R314, R322, R411). -/
def Dev.writeAt (src : Source) (addr v : Nat) (d : Dev) : Dev :=
  if !d.arrives src then d
  else match src with
  | .hart h =>
    if !d.hartMay h.val addr (addr % 8 = 0) then d.emit (.hartFault h.val .store)
    else if isDoor addr then d.writeDoorbell src ((addr - doorBase) / 4096) (addr % 4096) v
    else d.writeSpace src addr v
  | .companion tags =>
    if isDoor addr && tags.isSome then d.writeDoorbell src ((addr - doorBase) / 4096) (addr % 4096) v
    else if isPage addr || isDevice addr then d.writeSpace src addr v
    else d.log 12 noneByte noneByte 0 0 addr []
  | .minuet => if isPage addr || isDevice addr then d.writeSpace src addr v else d

/-! ### Harts -/

/-- `time` on a hart (R310, R327): its partition's cycle counter. -/
def Dev.hartTime (d : Dev) (h : Nat) : W64 :=
  match d.hartPart h with
  | some p => d.cycleCounter p
  | none => 0

/-- An access to FZCTX (R313): U-mode takes an exception; HS-mode and VS-mode read it, and write it, VALID only with a context of the
partition's block. -/
def Dev.accessFzctx (h : Nat) (mode : PrivMode) (x : CsrAccess) (d : Dev) : Dev :=
  if !d.host.running.contains h then d
  else match mode, x with
    | .user, _ => d.emit (.hartIllegal h)
    | .supervisor, .read => d.emit (.answer (smapGet d.host.fzctx h 0).toNat false)
    | .supervisor, .write v =>
      let ctx := natBitsAt v.toNat 0 12
      let valid := v.getLsbD 63 && (match d.hartPart h with
        | some p => d.ctxIn p ctx
        | none => false)
      d.setHost { d.host with fzctx := smapPut d.host.fzctx h (BitVec.ofNat 64 (ctx + if valid then 2 ^ 63 else 0)) }

/-- An access outside what a hart may reach (R314, R411, R412). -/
def Dev.hartAccess (h addr : Nat) (write aligned : Bool) (d : Dev) : Dev :=
  if !d.host.running.contains h || d.hartMay h addr aligned then d else d.emit (.hartFault h (if write then .store else .load))

end Sys2Proof.Machine
end

