-- ==== Sys2Proof/Machine/HostLink.lean ====
section
/-! DEFINITION. The meanings of the host complex's and the Ulitum Link's commands and of register accesses (13, 19). -/

namespace Sys2Proof.Machine

open Sys2Proof

/-- FZCTX_WRITE (R313): an access of the CSR; one that writes nothing reads it. -/
def execFzctxWrite (h : Fin 96) (mode : PrivMode) (x : CsrAccess) (s : State) : Out :=
  s.live (Dev.accessFzctx h.val mode x)

/-- HOST_FORBIDDEN_ACCESS (R314, R411, R412). -/
def execHostForbiddenAccess (h : Fin 96) (addr : BitVec 52) (write : Bool) (aligned64 : Bool) (s : State) : Out :=
  s.live (Dev.hartAccess h.val addr.toNat write aligned64)

/-- PRT_INT_WRITE (R316). -/
def execPrtIntWrite (p : Fin 48) (fence : Bool) (v : W64) (s : State) : Out := s.live (Dev.writeInt p.val fence v.toNat)

/-- ULK_FLIT (R318). -/
def execUlkFlit (seq ack : BitVec 10) (crcOk : Bool) (corrected : Nat) (s : State) : Out :=
  s.live (Dev.flit seq.toNat ack.toNat crcOk corrected)

/-- ULK_REPLAY_LIMIT (R320). -/
def execUlkReplayLimit (s : State) : Out := s.live Dev.replayLimit

/-- ULK_LOCK_LOSS (R320). -/
def execUlkLockLoss (s : State) : Out := s.live Dev.linkDown

/-- RETRAIN (R320): v is the word written to ULK_CTL. -/
def execRetrain (v : W64) (s : State) : Out := s.live (Dev.writeUlkCtl v.toNat)

/-- ULK_ALLOWANCE_DECLARATION (R321). -/
def execUlkAllowanceDeclaration (setsLog2 : BitVec 5) (ways : BitVec 6) (half upper : Bool) (s : State) : Out :=
  s.live (Dev.allowance setsLog2.toNat ways.toNat half upper)

/-- CONFIG_READ (R322, R411). -/
def execConfigRead (addr : BitVec 52) (s : State) : Out := s.live (Dev.configRead addr.toNat)

/-- CONFIG_WRITE (R322, R411). -/
def execConfigWrite (addr : BitVec 52) (v : W64) (s : State) : Out := s.live (Dev.configWrite addr.toNat v.toNat)

/-- TIME_MARK (R329). -/
def execTimeMark (markId : Byte) (compTime : W64) (s : State) : Out := s.live (Dev.timeMark markId.toNat compTime.toNat)

/-- XW_CONFIG_WRITE (R324). -/
def execXwConfigWrite (flags : Bool) (v : W64) (s : State) : Out := s.live (Dev.writeXw flags v.toNat)

/-- REGISTER_WRITE (R7 to R11, R411). -/
def execRegisterWrite (src : Source) (addr : BitVec 52) (v : W64) (s : State) : Out :=
  s.live (Dev.writeAt src addr.toNat v.toNat)

end Sys2Proof.Machine
end

