-- ==== Sys2Proof/Machine/Matrix.lean ====
section
/-! DEFINITION. Matrix instructions and the events of the arrays (03 R82 to R86, 04). A group's instruction checks, waits and
issues; loads, streams and drains finish by events of their own. -/

namespace Sys2Proof.Machine

open Sys2Proof

/-- The matrix unit is free for a group's instruction: no MMA of another group waits with it for a bank (R108). -/
def Run.mtxFree (r : Run) (gi : Nat) : Bool :=
  match r.mtx with
  | none => true
  | some g => g = gi

/-- A matrix instruction (R86): nothing when the effective mask is empty, MATRIX_DIVERGENT when it is not the live mask;
a format walk-through does not offer raises FORMAT_UNAVAILABLE; while another group's MMA holds the matrix unit it stays in its slot
(R108); a wait, on each array it names that is bound to another group (R82, R105). -/
def Dev.matrix (d : Dev) (w : Who) (o : MOp) (regs : List Nat) (bad : Core → Run → Bool) (fmt : Option Nat)
    (waits : Bool) (body : Core → Run → Grp → Nat → Dev) : Dev :=
  d.issue w false regs (fun c r _ => bad c r) fun c r g =>
    let eff := g.eff o.pr
    if eff = 0 then d.putThr w c r g.step
    else if eff ≠ g.live then d.instError w c r g errMatrixDivergent
    else if r.walk && (fmt.map mmaUnavailable).getD false then d.instError w c r g errFormat
    else if !r.mtxFree (thrIndex w.thr) then d
    else match (amaskArrays o.amask).filter (fun a => waits && r.arrayBlocked a (thrIndex w.thr)) with
      | [] => body c r g (thrIndex w.thr)
      | as => d.stall w c r g (.array as)

/-- AMASK names an array the core does not present, or none (R84). -/
def amaskBad (r : Run) (m : BitVec 4) : Bool := m = 0 || (amaskArrays m).any fun a => a ≥ r.arrays.length

def amaskOne (m : BitVec 4) : Bool := (amaskArrays m).length = 1

/-- The decode checks of MMA (R84, R100, R101). VD is a multiple of 16 where it is used (R62). -/
def mmaBad (r : Run) (o : MOp) : Bool :=
  !mmaFmtOk o.fmt.toNat || o.init = 3 || amaskBad r o.amask
    || (!o.gth && o.va.toNat + fragRegs o.fmt.toNat > r.hdr.vregs)
    || (o.init = 2 && (o.vd.toNat % 16 ≠ 0 || o.vd.toNat + 16 * (amaskArrays o.amask).length > r.hdr.vregs))

/-- The registers MMA reads. -/
def mmaRegs (o : MOp) : List Nat :=
  (if o.gth then [] else (List.range (fragRegs o.fmt.toNat)).map (o.va.toNat + ·))
    ++ (if o.init = 2 then (List.range (16 * (amaskArrays o.amask).length)).map (o.vd.toNat + ·) else [])

/-- The errors an MMA meets at the arrays it names (R82, R105, R106): INIT 0 without an open chain of its own; a buffer
another group loaded, or none since troupe start, or of another format. -/
def mmaArrayBad (r : Run) (o : MOp) (gi : Nat) : Bool :=
  (amaskArrays o.amask).any fun a =>
    match r.arrays[a]? with
    | none => true
    | some x =>
      (o.init = 0 && (match x.binding with | .chain g _ => g != gi | _ => true))
        || (x.buf o.wb).owner ≠ some gi || (x.buf o.wb).fmt ≠ o.fmt.toNat

/-- The gathered activation rows (R84, R103), or the error they meet: a misaligned index array or a byte not below S is
RANGE_FAULT, a poisoned ring slot POISON_CONSUMED. -/
def gatherRows (c : Core) (r : Run) (desc : W64) (fmt : Nat) : Except Nat (List (List Nat × Nat)) :=
  let idx := natBitsAt desc.toNat 0 20
  let table := natBitsAt desc.toNat 20 20
  let stride := natBitsAt desc.toNat 40 20
  let s := c.scratchSize r
  let n := rowBytes fmt
  if idx % 4 ≠ 0 || idx + 128 > s then .error errRange
  else
    let offs := (List.range 32).map fun i => (table + leNat (memRead r.scratch (idx + 4 * i) 4) * stride) % 2 ^ 64
    if offs.any (fun a => a + n > s) then .error errRange
    else if r.poisoned idx 128 || offs.any (fun a => r.poisoned a n) then .error errPoison
    else .ok (offs.map fun a => gatherRow fmt (memRead r.scratch a n))

/-- Opening or continuing a chain on array a, the k-th of AMASK, and streaming the rows (R82, R84, R105, R108). -/
def Run.mmaArray (r : Run) (c : Core) (g : Grp) (gi : Nat) (o : MOp) (rows : List (List Nat × Nat)) (k a : Nat) : Run :=
  match r.arrays[a]? with
  | none => r
  | some x =>
    let width := (c.arrayWidths[a]?).getD 32
    let stream (x : ArrayRun) (b : Bool) : Run :=
      r.setArray a { x with ops := x.ops ++ [.mac b o.wb o.fmt.toNat rows] }
    if o.init = 0 then
      match x.binding with
      | .chain _ b => stream x b
      | _ => r
    else
      let x := if x.owner = some gi then x.discard else x
      match x.freeBank with
      | none => r
      | some b =>
        let acc := if o.init = 2 then g.initAcc o.vd.toNat k width else []
        stream { (x.setBank b { st := .opened, acc := acc }) with binding := .chain gi b } b

/-- No bank is free for a chain that INIT 1 or 2 opens (R108), once the group's own chain is discarded. -/
def mmaNoBank (r : Run) (o : MOp) (gi : Nat) : Bool :=
  o.init ≠ 0 && (amaskArrays o.amask).any fun a =>
    match r.arrays[a]? with
    | none => false
    | some x => ((if x.owner = some gi then x.discard else x).freeBank).isNone

/-- ARRAY_MACS of a context (R307): 32 × 32 × w for each array of an MMA, w its presented width. -/
def Dev.countMacs (d : Dev) (ctx : Nat) (widths : List Nat) : Dev :=
  d.meter ctx fun m => { m with arrayMacs := m.arrayMacs + BitVec.ofNat 64 (widths.map (1024 * ·)).sum }

/-- MMA (R82 to R84, R86): 32 activation rows streamed into the chains of every array of AMASK. While both banks of an
array are busy it waits and holds the matrix unit (R108). -/
def execMma (w : Who) (o : MOp) (s : State) : Out :=
  s.live fun d => d.matrix w o (mmaRegs o) (fun _ r => mmaBad r o) (some o.fmt.toNat) (o.init ≠ 0) fun c r g gi =>
    if mmaArrayBad r o gi then d.instError w c r g errIllegal
    else
      match (if o.gth then gatherRows c r (g.ureg (o.va.toNat % 64)) o.fmt.toNat
        else .ok (g.actRows o.fmt.toNat o.va.toNat)) with
      | .error e => d.instError w c r g e
      | .ok rows =>
        if mmaNoBank r o gi then d.putThr w c { r with mtx := some gi } g
        else
          let arrays := amaskArrays o.amask
          let r' := (List.range arrays.length).foldl
            (fun r k => r.mmaArray c g gi o rows k (arrays.getD k 0)) { r with mtx := none }
          (d.countMacs r.ctx (arrays.map fun a => (c.arrayWidths[a]?).getD 32)).putThr w c r' g.step

/-- WLOAD (R82, R83, R85, R102, R106): a tile on its way from scratch to a buffer; the array becomes held by the group. -/
def execWload (w : Who) (o : MOp) (s : State) : Out :=
  s.live fun d => d.matrix w o [] (fun _ r => !mmaFmtOk o.fmt.toNat || amaskBad r o.amask || !amaskOne o.amask)
    (some o.fmt.toNat) true fun c r g gi =>
      let a := (amaskArrays o.amask).getD 0 0
      let off := natBitsAt (g.ureg o.ua.toNat).toNat 0 20
      let n := tileBytes o.fmt.toNat
      if off % 64 ≠ 0 || off + n > c.scratchSize r then d.instError w c r g errRange
      else if r.poisoned off n then d.instError w c r g errPoison
      else match r.arrays[a]? with
        | none => d
        | some x =>
          let buf : WeightBuf := { x.buf o.wb with owner := some gi, fmt := o.fmt.toNat }
          let x' := { (x.setBuf o.wb buf) with
            binding := if x.binding = .free then .held gi else x.binding
            ops := x.ops ++ [.load o.wb (memRead r.scratch off n)] }
          d.putThr w c (r.setArray a x') g.step

/-- The registers MDRAIN writes (R85). -/
def mdrainCount (o : MOp) : Nat := if o.dfmt then 8 else 16

/-- MDRAIN (R82, R85, R105, R108): the chain ends, the array is released and its bank starts draining. -/
def execMdrain (w : Who) (o : MOp) (s : State) : Out :=
  s.live fun d => d.matrix w o ((List.range (mdrainCount o)).map (o.vd.toNat + ·))
    (fun _ r => amaskBad r o.amask || !amaskOne o.amask || o.vd.toNat % 16 ≠ 0
      || o.vd.toNat + mdrainCount o > r.hdr.vregs) none true fun c r g gi =>
      let a := (amaskArrays o.amask).getD 0 0
      match r.arrays[a]? with
      | none => d
      | some x =>
        match x.binding with
        | .chain _ b =>
          let dr : Drain := { g := gi, vd := o.vd.toNat, bf16 := o.dfmt, stat := o.stat
                              width := (c.arrayWidths[a]?).getD 32 }
          d.putThr w c (r.setArray a { (x.setBank b { x.bank b with st := .draining dr }) with binding := .free }) g.step
        | _ => d.instError w c r g errIllegal

/-- An event at an array of a running troupe. -/
def Dev.arrayEvent (d : Dev) (core : Nat) (a : Nat) (f : Core → Run → ArrayRun → Run) : Dev :=
  let c := d.core core
  match c.run with
  | none => d
  | some r =>
    match r.arrays[a]? with
    | none => d
    | some x => d.setCore core { c with run := some (f c r x) }

/-- WEIGHT_ROWS_WRITTEN (R99): the earliest load no earlier stream still reads under is in its buffer. -/
def execWeightRowsWritten (core : Fin 768) (array : Fin 4) (s : State) : Out :=
  s.live fun d => d.arrayEvent core.val array.val fun _ r x =>
    match takeOp opIsLoad opBlocks [] x.ops with
    | some (.load b tile, ops) => r.setArray array.val { (x.setBuf b { x.buf b with tile := tile }) with ops := ops }
    | _ => r

/-- MMA_PRODUCTS_IN_CHAIN (R114): every product of the earliest MMA is in its chain. -/
def execMmaProductsInChain (core : Fin 768) (array : Fin 4) (s : State) : Out :=
  s.live fun d => d.arrayEvent core.val array.val fun c r x =>
    match takeOp (fun op => !opIsLoad op) opBlocks [] x.ops with
    | some (.mac k b fmt rows, ops) =>
      let width := (c.arrayWidths[array.val]?).getD 32
      r.setArray array.val { (x.setBank k ((x.bank k).applyMac fmt (x.buf b).tile rows width)) with ops := ops }
    | _ => r

/-- Is a stream into this bank still under way? -/
def ArrayRun.streaming (x : ArrayRun) (b : Bool) : Bool :=
  x.ops.any fun op => match op with
    | .mac b' _ _ _ => b' == b
    | .load _ _ => false

/-- DRAIN_COMPLETE (R112, R113, R115): once the chain's products are in, the registers are written, the statistics counted
and the bank is free. -/
def execDrainComplete (core : Fin 768) (array : Fin 4) (bank : Bool) (s : State) : Out :=
  s.live fun d => d.arrayEvent core.val array.val fun _ r x =>
    match (x.bank bank).st with
    | .draining dr =>
      if x.streaming bank then r
      else
        let r := r.setArray array.val (x.setBank bank Bank.free)
        match smapGet? r.groups dr.g with
        | none => r
        | some g => { r with groups := smapPut r.groups dr.g ((g.writeDrain (x.bank bank) dr).countDrain (x.bank bank) dr) }
    | _ => r

/-- A group that waited for an array has been given it: it waits for the others it named, or only to be woken. -/
def Grp.given (g : Grp) (a : Nat) : Grp :=
  match g.sched with
  | .pendingWait (.array as) =>
    { g with sched := .pendingWait (if as.filter (· ≠ a) = [] then .resolved else .array (as.filter (· ≠ a))) }
  | _ => g

/-- ARRAY_HANDOVER (R105): a released array goes to the group that began waiting for it first. -/
def execArrayHandover (core : Fin 768) (array : Fin 4) (s : State) : Out :=
  s.live fun d => d.arrayEvent core.val array.val fun _ r x =>
    if x.binding ≠ .free then r
    else match earliest (fun g => g.awaitsArray array.val) r.groups with
      | none => r
      | some (gi, g) =>
        { (r.setArray array.val { x with binding := .held gi }) with groups := smapPut r.groups gi (g.given array.val) }

end Sys2Proof.Machine
end

