-- ==== Sys2Proof/Machine/Memory.lean ====
section
/-! DEFINITION. Memory instructions (03 R76 to R81): loads, stores, atomics, scratch accesses, fences and cache operations,
with what they do to the near cache (06 R153 to R161). -/

namespace Sys2Proof.Machine

open Sys2Proof

/-- Does an access lie in a window? -/
def awayAny (accs : List Acc1) : Bool := accs.any fun a => match a.spot with
  | .window _ _ => true
  | _ => false

/-! ### Loads -/

/-- A load (R76, R77, R154, R155): plain through the near cache, otherwise at the point of coherence; an acquire at S3 or wider,
or from a window (R336), then acts on the near cache (R156). -/
def Dev.load (w : Who) (o : MemOp) (sem : Nat) (d : Dev) : Dev :=
  let n := sizeBytes o.size
  let k := w.core.val
  d.memory w o (memRegs o) (memBad sem o) n n false fun r g eff as d =>
    match d.reach w r n .read as with
    | (_, some h, d) => d.memEnd w g eff (some h) [] []
    | (accs, none, d) =>
      let sext := o.fn.getLsbD 0
      let (m, d) := d.loads w r (sem = 0) n o.vr.toNat sext accs Made.start
      let acquires := sem = 2 && m.halt.isNone && (awayAny accs || scopeNear o)
      let d := if acquires && m.remote = [] then d.acquireNear k else d
      d.memEnd w (g.setLoaded o.vr.toNat n sext m.vals) (eff &&& ~~~m.done) m.halt (m.remote.map (·, memRegs o))
        (if acquires then m.remote else [])

/-- LD (R77). -/
def execLd (w : Who) (o : MemOp) (s : State) : Out := s.live fun d => d.load w o 0

/-- LD.V (R77, R154). -/
def execLdV (w : Who) (o : MemOp) (s : State) : Out := s.live fun d => d.load w o 1

/-- LD.ACQ (R77, R146, R154). -/
def execLdAcq (w : Who) (o : MemOp) (s : State) : Out := s.live fun d => d.load w o 2

/-! ### Stores -/

/-- The elements of stored values that STAT counts (R77, R129). -/
def statElems (o : MemOp) (n : Nat) (vals : List Nat) : List ElemCount :=
  let st := o.fn.toNat % 4
  let (f, b) := if st = 1 then (fpF32, 4) else if st = 2 then (fpBf16, 2) else (fpF16, 2)
  if st = 0 then []
  else vals.flatMap fun v => (List.range (n / b)).map fun i => storedCount f (natBitsAt v (8 * b * i) (8 * b))

/-- A store of n bytes a thread (R76, R77, R153, R155): into the near cache, or at the point of coherence. A release writes
back the near cache first when its scope is S3 or wider, or it goes to a window, and at S7 waits for the thread's remote
writes (R337). -/
def Dev.storeOp (w : Who) (o : MemOp) (regs : List Nat) (bad : Run → Bool) (n : Nat) (near release update : Bool)
    (val : Grp → Nat → Nat) (stat : List Nat → List ElemCount) (d : Dev) : Dev :=
  let k := w.core.val
  d.memory w o regs bad n n true fun r g eff as d =>
    match d.reach w r n .write as with
    | (_, some h, d) => d.memEnd w g eff (some h) [] []
    | (accs, none, d) =>
      let away := awayAny accs
      let waits := d.releaseWaits w release (if away then 7 else o.scope.toNat)
      if waits ≠ [] then d.memEnd w g eff (some (.wait (.remote waits))) [] []
      else
        let d := if release && (away || scopeNear o) then d.cleanNear k else d
        let (ls, m, d) := d.stores w r (near && (d.core k).nearUnits ≠ 0) n (val g) accs [] Made.start
        let (m, d) := if m.halt.isSome then (m, d) else d.lineWrites k (r.rq k) update ls m
        let g := g.countElems (stat ((threadsOf m.done).map (val g)))
        d.memEnd w g (eff &&& ~~~m.done) m.halt [] []

/-- ST (R77). -/
def execSt (w : Who) (o : MemOp) (s : State) : Out :=
  let n := sizeBytes o.size
  s.live fun d => d.storeOp w o (memRegs o) (fun r => memBad 0 o r || statBad o) n true false true
    (fun g t => g.memVal o.vr.toNat n t) (statElems o n)

/-- ST.REL (R77, R146, R153). -/
def execStRel (w : Who) (o : MemOp) (s : State) : Out :=
  let n := sizeBytes o.size
  s.live fun d => d.storeOp w o (memRegs o) (fun r => memBad 3 o r || statBad o) n false true true
    (fun g t => g.memVal o.vr.toNat n t) (statElems o n)

/-- The decode checks of a cache operation (R77): SEM 0. -/
def copBad (o : MemOp) (r : Run) : Bool := o.sem ≠ 0 || memAddrBad r.hdr.vregs o

/-- ZLINE (R80, R160): 64 zero bytes as a plain store. -/
def execZline (w : Who) (o : MemOp) (s : State) : Out :=
  s.live fun d => d.storeOp w o [] (copBad o) 64 true false true (fun _ _ => 0) fun _ => []

/-- ZLINE.S (R80, R160): 64 zero bytes at the point of coherence; the core's own copy goes. -/
def execZlineS (w : Who) (o : MemOp) (s : State) : Out :=
  s.live fun d => d.storeOp w o [] (copBad o) 64 false false false (fun _ _ => 0) fun _ => []

/-! ### Atomics -/

/-- An ATOM (R78, R146, R153): releases before, acquires after, as SEM says. -/
def Dev.atom (w : Who) (o : MemOp) (d : Dev) : Dev :=
  let wide := decide (o.size = 3)
  let n := sizeBytes o.size
  let k := w.core.val
  let regs := if o.fn.toNat % 16 = 10 then memRegs o ++ (memRegs o).map (· + (memRegs o).length) else memRegs o
  d.memory w o regs (fun r => atomBad o r false) n n true fun r g eff as d =>
    match d.reach w r n .atomic as with
    | (_, some h, d) => d.memEnd w g eff (some h) [] []
    | (accs, none, d) =>
      let away := awayAny accs
      let release := o.sem = 3 || o.sem = 4
      let waits := d.releaseWaits w release (if away then 7 else o.scope.toNat)
      if waits ≠ [] then d.memEnd w g eff (some (.wait (.remote waits))) [] []
      else
        let d := if release && (away || scopeNear o) then d.cleanNear k else d
        let noret := o.fn.getLsbD 4
        let words := if wide then 2 else 1
        let (m, d) := d.atomics w r (o.fn.toNat % 16) wide noret o.vr.toNat (g.memVal o.vr.toNat n)
          (g.memVal (o.vr.toNat + words) n) accs Made.start
        let acquires := (o.sem = 2 || o.sem = 4) && m.halt.isNone && (away || scopeNear o)
        let d := if acquires && m.remote = [] then d.acquireNear k else d
        d.memEnd w (if noret then g else g.setLoaded o.vr.toNat n false m.vals) (eff &&& ~~~m.done) m.halt
          (if noret then [] else m.remote.map (·, memRegs o)) (if acquires then m.remote else [])

/-- ATOM.ADD (R78). -/
def execAtomAdd (w : Who) (o : MemOp) (s : State) : Out := s.live fun d => d.atom w { o with fn := o.fn &&& 16 }

/-- ATOM.FADD (R78). -/
def execAtomFadd (w : Who) (o : MemOp) (s : State) : Out := s.live fun d => d.atom w { o with fn := o.fn &&& 16 ||| 1 }

/-- ATOM.AND (R78). -/
def execAtomAnd (w : Who) (o : MemOp) (s : State) : Out := s.live fun d => d.atom w { o with fn := o.fn &&& 16 ||| 2 }

/-- ATOM.OR (R78). -/
def execAtomOr (w : Who) (o : MemOp) (s : State) : Out := s.live fun d => d.atom w { o with fn := o.fn &&& 16 ||| 3 }

/-- ATOM.XOR (R78). -/
def execAtomXor (w : Who) (o : MemOp) (s : State) : Out := s.live fun d => d.atom w { o with fn := o.fn &&& 16 ||| 4 }

/-- ATOM.SMIN (R78). -/
def execAtomSmin (w : Who) (o : MemOp) (s : State) : Out := s.live fun d => d.atom w { o with fn := o.fn &&& 16 ||| 5 }

/-- ATOM.SMAX (R78). -/
def execAtomSmax (w : Who) (o : MemOp) (s : State) : Out := s.live fun d => d.atom w { o with fn := o.fn &&& 16 ||| 6 }

/-- ATOM.UMIN (R78). -/
def execAtomUmin (w : Who) (o : MemOp) (s : State) : Out := s.live fun d => d.atom w { o with fn := o.fn &&& 16 ||| 7 }

/-- ATOM.UMAX (R78). -/
def execAtomUmax (w : Who) (o : MemOp) (s : State) : Out := s.live fun d => d.atom w { o with fn := o.fn &&& 16 ||| 8 }

/-- ATOM.EXCH (R78). -/
def execAtomExch (w : Who) (o : MemOp) (s : State) : Out := s.live fun d => d.atom w { o with fn := o.fn &&& 16 ||| 9 }

/-- ATOM.CAS (R78). -/
def execAtomCas (w : Who) (o : MemOp) (s : State) : Out := s.live fun d => d.atom w { o with fn := o.fn &&& 16 ||| 10 }

/-! ### Scratch -/

/-- The core whose scratch an LDS or STS names, by REMOTE and RANK (R79). -/
def scratchCore (w : Who) (o : MemOp) (r : Run) : Nat :=
  if o.fn.getLsbD 4 then (r.cores[o.fn.toNat % 16]?).getD w.core.val else w.core.val

/-- REMOTE in a core or gang troupe, or a RANK at or above n (R79). -/
def remoteBad (o : MemOp) (r : Run) : Bool :=
  o.fn.getLsbD 4 && (r.hdr.unit = unitCore || r.hdr.unit = unitGang || o.fn.toNat % 16 ≥ r.cores.length)

/-- Changing a core's scratch. -/
def Dev.setScratch (d : Dev) (k : Nat) (m : Mem) : Dev :=
  match (d.core k).run with
  | none => d
  | some r => d.setCore k { d.core k with run := some { r with scratch := m } }

/-- Storing a changed thread of a core whose scratch may have changed. -/
def Dev.putThrNow (d : Dev) (w : Who) (g : Grp) : Dev :=
  let c := d.core w.core.val
  match c.run with
  | none => d
  | some r => d.putThr w c r g

/-- A scratch instruction (R57, R79): an offset that is misaligned, or not below S, raises RANGE_FAULT; a read of a poisoned
ring slot POISON_CONSUMED (R50). -/
def Dev.scratch (w : Who) (o : MemOp) (regs : List Nat) (bad : Run → Bool) (remote reads : Bool)
    (body : Grp → List (Nat × Nat) → Nat → Mem → Grp × Mem) (d : Dev) : Dev :=
  let n := sizeBytes o.size
  d.issue w false (regs ++ memVx o) (fun _ r _ => bad r) fun c r g =>
    let eff := g.eff o.pr
    if eff = 0 then d.putThr w c r g.step
    else
      let as := (threadsOf eff).map fun t => (t, (g.addr o n t).toNat)
      let k := if remote then scratchCore w o r else w.core.val
      let ck := d.core k
      let rk := ck.run.getD r
      if as.any (fun a => a.2 % n ≠ 0 || a.2 + n > ck.scratchSize rk) then d.instError w c r g errRange
      else if reads && as.any (fun a => rk.poisoned a.2 n) then d.instError w c r g errPoison
      else
        let (g, m) := body g as n rk.scratch
        (d.setScratch k m).putThrNow w g.step

/-- LDS (R76, R79): SEXT is the low bit of the SCOPE field. -/
def execLds (w : Who) (o : MemOp) (s : State) : Out :=
  s.live fun d => d.scratch w o (memRegs o) (fun r => memBad 0 o r || remoteBad o r) true true fun g as n m =>
    (g.setLoaded o.vr.toNat n (o.scope.getLsbD 0) (as.map fun a => (a.1, leNat (memRead m a.2 n))), m)

/-- STS (R79): the threads store in ascending order. -/
def execSts (w : Who) (o : MemOp) (s : State) : Out :=
  s.live fun d => d.scratch w o (memRegs o) (fun r => memBad 0 o r || remoteBad o r) true false fun g as n m =>
    (g, as.foldl (fun m a => memWrite m a.2 (leBytes n (g.memVal o.vr.toNat n a.1))) m)

/-- One thread's atomic on scratch, and the old value. -/
def scratchAtomic (aop n : Nat) (g : Grp) (reg : Nat) (m : Mem) (a : Nat × Nat) : Nat × Mem :=
  let old := leNat (memRead m a.2 n)
  let new := (atomNew aop (8 * n) old (g.memVal reg n a.1) (g.memVal (reg + n / 4) n a.1)).getD old
  (old, memWrite m a.2 (leBytes n new))

/-- ATOMS (R78): on the issuing core's own scratch, in ascending thread order. -/
def execAtoms (w : Who) (o : MemOp) (s : State) : Out :=
  let regs := if o.fn.toNat % 16 = 10 then memRegs o ++ (memRegs o).map (· + (memRegs o).length) else memRegs o
  s.live fun d => d.scratch w o regs (fun r => atomBad o r true) false true fun g as n m =>
    let (vals, m) := as.foldl (fun (vs, m) a =>
      let (old, m) := scratchAtomic (o.fn.toNat % 16) n g o.vr.toNat m a
      (smapPut vs a.1 old, m)) (([] : SMap Nat), m)
    (if o.fn.getLsbD 4 then g else g.setLoaded o.vr.toNat n false vals, m)

/-! ### Fences and cache operations -/

/-- What a fence waits for: a full fence every access of the thread that is still outstanding, at any scope (R152); a release at S7 its
remote writes and atomics (R337). Every other access of the model is complete when its instruction is. -/
def Dev.fenceWaits (d : Dev) (w : Who) (g : Grp) (sem : BitVec 3) (scope : Nat) : List Nat :=
  if sem = 4 then d.unacked w ++ g.away.map (·.1) else d.releaseWaits w (sem = 3) scope

/-- A FENCE (R146, R152, R156). -/
def Dev.fence (w : Who) (o : MemOp) (sem : BitVec 3) (d : Dev) : Dev :=
  let k := w.core.val
  d.issue w false [] (fun _ _ _ => o.sem ≠ sem) fun c r g =>
    if g.eff o.pr = 0 then d.putThr w c r g.step
    else
      let release := sem = 3 || sem = 4
      let waits := d.fenceWaits w g sem o.scope.toNat
      if waits ≠ [] then d.stall w c r g (.remote waits)
      else
        let d := if release && scopeNear o then d.cleanNear k else d
        let d := if (sem = 2 || sem = 4) && scopeNear o then d.acquireNear k else d
        d.putThrNow w g.step

/-- FENCE.ACQ (R77, R146). -/
def execFenceAcq (w : Who) (o : MemOp) (s : State) : Out := s.live fun d => d.fence w o 2

/-- FENCE.REL (R77, R146). -/
def execFenceRel (w : Who) (o : MemOp) (s : State) : Out := s.live fun d => d.fence w o 3

/-- FENCE.AR (R77, R146, R152). -/
def execFenceAr (w : Who) (o : MemOp) (s : State) : Out := s.live fun d => d.fence w o 4

/-- INV.NEAR.L or WB.NEAR.L of each thread's line (R80): lines not present are passed over. -/
def Dev.nearLines (w : Who) (o : MemOp) (drop : Bool) (d : Dev) : Dev :=
  let k := w.core.val
  d.memory w o [] (copBad o) 64 64 false fun _ g _ as d =>
    let d := as.foldl (fun d a =>
      (d.core k).near.foldl (fun d x =>
        if x.va ≠ a.2 / 64 then d
        else
          let d := d.writeNear k x
          let c := d.core k
          d.setCore k { c with near := if drop then c.near.filter (fun y => y.line ≠ x.line) else c.near.map fun y =>
            if y.line = x.line then { y with dirty := 0 } else y }) d) d
    d.putThrNow w { g with todo := none, pc := g.pc + 1 }

/-- INV.NEAR.L (R80). -/
def execInvNearL (w : Who) (o : MemOp) (s : State) : Out := s.live fun d => d.nearLines w o true

/-- WB.NEAR.L (R80). -/
def execWbNearL (w : Who) (o : MemOp) (s : State) : Out := s.live fun d => d.nearLines w o false

/-- A cache operation of the whole core, executed once (R80). -/
def Dev.nearAll (w : Who) (o : MemOp) (act : Nat → Dev → Dev) (d : Dev) : Dev :=
  d.issue w false [] (fun _ _ _ => o.sem ≠ 0) fun c r g =>
    if g.eff o.pr = 0 then d.putThr w c r g.step else (act w.core.val d).putThrNow w g.step

/-- Writing back and dropping every line, as an NSPLIT that enlarges the near cache needs (R159). -/
def Dev.invNear (k : Nat) (d : Dev) : Dev :=
  let d := d.flushNear k
  d.setCore k { d.core k with invClean := true, stale := false }

/-- INV.NEAR (R80). -/
def execInvNear (w : Who) (o : MemOp) (s : State) : Out := s.live fun d => d.nearAll w o Dev.invNear

/-- WB.NEAR (R80). -/
def execWbNear (w : Who) (o : MemOp) (s : State) : Out := s.live fun d => d.nearAll w o Dev.cleanNear

/-- A prefetch of one thread's line (R80, R161, R223): dropped on a translation miss, a window, poison or a wait. An address that is not
64-byte aligned prefetches the line it lies in (DESIGN CHOICE, log 119). -/
def Dev.prefetchLine (k : Nat) (r : Run) (near : Bool) (d : Dev) (a : Nat × Nat) : Dev :=
  if 2 ^ 57 ≤ a.2 || (near && (d.core k).nearUnits = 0) then d
  else match d.coreLookup k r.ctx (a.2 / 4096) .read with
    | (none, d) => d
    | (some x, d) =>
      match d.spotOf r.part r.q r.slot x a.2 1 false with
      | (.at_ (.memory pa), d) =>
        if near && (d.nearLine? k (pa / 64)).isSome then d
        else match d.pocRead (r.rq k) (pa / 64) with
          | none => d
          | some ((l, bad), d') =>
            if bad then d
            else if near then d'.keepNear k ((NearLine.empty (pa / 64) (a.2 / 64)).filled l false) else d'
      | _ => d

/-- PF.NEAR or PF.S (R80): it raises nothing. -/
def Dev.prefetch (w : Who) (o : MemOp) (near : Bool) (d : Dev) : Dev :=
  d.issue w false (memVx o) (fun _ r _ => copBad o r) fun _ r g =>
    let as := (threadsOf (g.eff o.pr)).map fun t => (t, (g.addr o 64 t).toNat)
    (as.foldl (fun d a => d.prefetchLine w.core.val r near a) d).putThrNow w g.step

/-- PF.NEAR (R80). -/
def execPfNear (w : Who) (o : MemOp) (s : State) : Out := s.live fun d => d.prefetch w o true

/-- PF.S (R80). -/
def execPfS (w : Who) (o : MemOp) (s : State) : Out := s.live fun d => d.prefetch w o false

end Sys2Proof.Machine
end

