-- ==== Sys2Proof/Machine/Minuet.lean ====
section
/-! DEFINITION. The meanings of the commands of the Minuet complex, of the loops and clamps, and of the power pins (17, 20). -/

namespace Sys2Proof.Machine

open Sys2Proof

/-! ### Mailbox commands -/

/-- SET_BEATS (R302). -/
def execSetBeats (slot slots : BitVec 14) (_ : BitVec 28) (s : State) : Out :=
  s.live fun d => d.mbox (Dev.setBeats slot.toNat slots.toNat)

/-- LOG_SLOTS (R389). -/
def execLogSlots (slot slots : BitVec 14) (_ : BitVec 28) (s : State) : Out :=
  s.live fun d => d.mbox (Dev.logSlots slot.toNat slots.toNat)

/-- TELEM_SLOTS (R388). -/
def execTelemSlots (slot slots : BitVec 14) (_ : BitVec 28) (s : State) : Out :=
  s.live fun d => d.mbox (Dev.telemSlots slot.toNat slots.toNat)

/-- STAGE_IMAGE (R391, R392). -/
def execStageImage (slot slots : BitVec 14) (_ : BitVec 28) (s : State) : Out :=
  s.live fun d => d.mbox (Dev.stage slot.toNat slots.toNat)

/-- ACTIVATE (R393). -/
def execActivate (_ _ : BitVec 14) (_ : BitVec 28) (s : State) : Out := s.live fun d => d.mbox Dev.activateImage

/-- CUTIN_APPROVE (R406). -/
def execCutinApprove (_ _ : BitVec 14) (arg : BitVec 28) (s : State) : Out := s.live fun d => d.mbox (Dev.approve arg.toNat)

/-- CUTIN_DECLINE (R406). -/
def execCutinDecline (_ _ : BitVec 14) (arg : BitVec 28) (s : State) : Out := s.live fun d => d.mbox (Dev.decline arg.toNat)

/-- STANDING_APPROVAL (R406). -/
def execStandingApproval (_ _ : BitVec 14) (arg : BitVec 28) (s : State) : Out := s.live fun d => d.mbox (Dev.standing arg.toNat)

/-- PROVIDER_NOTICE (R228). -/
def execProviderNotice (slot slots : BitVec 14) (arg : BitVec 28) (s : State) : Out :=
  s.live fun d => d.mbox (Dev.providerNotice slot.toNat slots.toNat arg.toNat)

/-- CLEAR_REMAP (R206). -/
def execClearRemap (_ _ : BitVec 14) (arg : BitVec 28) (s : State) : Out := s.live fun d => d.mbox (Dev.clearRemap arg.toNat)

/-- WARM_RESET (R375). -/
def execWarmReset (_ _ : BitVec 14) (_ : BitVec 28) (s : State) : Out := s.live Dev.mboxWarm

/-! ### Firmware -/

/-- TELEMETRY_TICK (R388). -/
def execTelemetryTick (s : State) : Out := s.live Dev.telemetry

/-- LOG_FLUSH_TICK (R389). -/
def execLogFlushTick (s : State) : Out := s.live Dev.logFlush

/-- IMAGE_VERIFIED (R391, R392). -/
def execImageVerified (v : ImageVerdict) (s : State) : Out := s.live (Dev.verified v)

/-- ACTIVATION_RESTART (R393, R394). -/
def execActivationRestart (s : State) : Out := s.live Dev.activateAgain

/-- WATCHDOG_EXPIRY (R382): recent says that it is the core's third within 10 s. -/
def execWatchdogExpiry (c : Fin 6) (recent : Bool) (s : State) : Out := s.live (Dev.watchdog c.val recent)

/-- MINUET_CORE_RESTART (R382, R385). -/
def execMinuetCoreRestart (c : Fin 6) (s : State) : Out := s.live (Dev.coreRestart c.val)

/-- MNT_NEG_DRV_WRITE (R395). -/
def execMntNegDrvWrite (p : Fin 48) (v : W64) (s : State) : Out := s.live (Dev.writeNeg p.val v.toNat)

/-! ### Loops, clamps, power -/

/-- THERMAL_LOOP_TICK (R383, R209). -/
def execThermalLoopTick (temps : List (Fin 69 × Byte)) (s : State) : Out :=
  s.live (Dev.thermalTick (temps.map fun x => (x.1.val, x.2.toNat)))

/-- POWER_LOOP_TICK (R384). -/
def execPowerLoopTick (watts : BitVec 13) (s : State) : Out := s.live (Dev.powerTick watts.toNat)

/-- THERMAL_CLAMP (R385). -/
def execThermalClamp (n : Fin 69) (temp : Byte) (s : State) : Out := s.live fun d => d.hotClamp n.val temp.toNat

/-- THERMAL_CLAMP_RELEASE (R385). -/
def execThermalClampRelease (n : Fin 69) (temp : Byte) (s : State) : Out := s.live fun d => d.hotClamp n.val temp.toNat

/-- LOOPS_MISSED_CLAMP (R385). -/
def execLoopsMissedClamp (s : State) : Out := s.live Dev.loopsMissed

/-- PWR_BRAKE_ASSERT (R386). -/
def execPwrBrakeAssert (s : State) : Out := s.live (Dev.brake true)

/-- PWR_BRAKE_DEASSERT (R386). -/
def execPwrBrakeDeassert (s : State) : Out := s.live (Dev.brake false)

/-- SUPPLY_EXCURSION (R422). -/
def execSupplyExcursion (qv : Byte) (s : State) : Out := s.live (Dev.supply qv.toNat)

/-- SUPPLY_EXCURSION_END (R422). -/
def execSupplyExcursionEnd (qv : Byte) (s : State) : Out := s.live (Dev.supply qv.toNat)

/-- SUPPLY_OUT_OF_RANGE (R422): beyond 46 to 60 V, or outside 48 to 58 V for more than 10 ms. -/
def execSupplyOutOfRange (qv : Byte) (s : State) : Out := s.live (Dev.supplyOut qv.toNat)

/-- POWER_CYCLE_REQUEST (R376). -/
def execPowerCycleRequest (c : PowerCause) (s : State) : Out := s.live fun d => d.requestPower c

end Sys2Proof.Machine
end

