-- ==== Sys2Proof/Machine/Partitions.lean ====
section
/-! DEFINITION. The meanings of the partition commands (12, 16 R368, 08 R197, R213). -/

namespace Sys2Proof.Machine

open Sys2Proof

/-- ACTIVATE_PARTITION (R292). -/
def execActivatePartition (p : Fin 48) (s : State) : Out := s.live (Dev.activate p.val)

/-- DISSOLVE (R293). -/
def execDissolve (p : Fin 48) (s : State) : Out := s.live (Dev.dissolve p.val)

/-- REINITIALISE (R371). -/
def execReinitialise (p : Fin 48) (s : State) : Out := s.live (Dev.reinitialise p.val)

/-- REINIT_OVERRUN (R368). -/
def execReinitOverrun (p : Fin 48) (s : State) : Out := s.live (Dev.reinitOver p.val)

/-- HBM_REPL_PAIR_WRITE (R213). -/
def execHbmReplPairWrite (j : Fin 64) (v : W64) (s : State) : Out := s.live (Dev.writePair j.val v.toNat)

/-- HBM_FW_MAP_WRITE (R197). -/
def execHbmFwMapWrite (i : Fin 2) (v : W64) (s : State) : Out := s.live (Dev.writeFwMap i.val v.toNat)

/-- SNAPSHOT_GO (R308): v is the word written to MTR_SNAP_CTL. -/
def execSnapshotGo (v : W64) (s : State) : Out := s.live (Dev.writeSnap v.toNat)

/-- ATTEST_GO (R309). -/
def execAttestGo (p : Fin 48) (s : State) : Out := s.live (Dev.attest p.val)

end Sys2Proof.Machine
end

