-- ==== Sys2Proof/Machine/CollOps.lean ====
section
/-! DEFINITION. The collective engine (14 R340 to R346): shards and pieces, segments that arrive, unordered and ordered reduction,
and the run of one member. A piece travels in segments of at most 64 bytes (log 24). -/

namespace Sys2Proof.Machine

open Sys2Proof

/-! ### Shards (R342) -/

def CollJob.es (j : CollJob) : Nat := elemBytes j.dtype
def CollJob.reduces (j : CollJob) : Bool := collReduces j.op
def CollJob.s (j : CollJob) : Nat := shardLen j.elements j.n

def opScatter : Nat := 0x04
def opGather : Nat := 0x10
def opBroadcast : Nat := 0x11

/-- First element of shard k. -/
def CollJob.first (j : CollJob) (k : Nat) : Nat := min (k * j.s) j.elements

/-- Bytes of shard k, or of a member's whole contribution to a gather or broadcast. -/
def CollJob.pieceLen (j : CollJob) (k : Nat) : Nat :=
  if j.reduces then (j.first (k + 1) - j.first k) * j.es else j.elements * j.es

/-- Where shard k lies in a DST that holds it (R340). -/
def CollJob.shardAt (j : CollJob) (k : Nat) : Nat :=
  if j.op = opScatter || j.op = opBroadcast then 0
  else if j.reduces then j.first k * j.es else k * j.elements * j.es

/-- Where the piece of rank r lies in a staging buffer (R344). -/
def CollJob.stageAt (j : CollJob) (r : Nat) : Nat := (j.epoch % 2 * j.n + r) * j.s * j.es

def CollJob.stages (j : CollJob) : Bool := j.ordered && j.reduces

/-- Bytes of its own contribution that a member writes into its own DST: its shard of an unordered reduction (R343), its part
of a gather, everything at the root of a broadcast. -/
def CollJob.ownLen (j : CollJob) : Nat :=
  if j.stages then 0 else if j.op = opBroadcast && j.rank ≠ j.root then 0 else j.pieceLen j.rank

def CollJob.ownSrc (j : CollJob) : Nat := if j.reduces then j.src + j.first j.rank * j.es else j.src

/-- A piece to be sent: to a rank, from a virtual address, its length, its offset in the window it goes through. -/
structure Piece where
  dest : Nat
  va : Nat
  len : Nat
  window : Nat
  off : Nat
  allgather : Bool
  shard : Nat
  deriving DecidableEq, Repr

def Member.none : Member := { module_ := 0, dstWin := 0, stgWin := 0, key := 0 }
def CollJob.member (j : CollJob) (k : Nat) : Member := (j.members[k]?).getD Member.none

def CollJob.others (j : CollJob) : List Nat := (List.range j.n).filter (· ≠ j.rank)

/-- The pieces of the first phase. -/
def CollJob.sends (j : CollJob) : List Piece :=
  if j.reduces then j.others.map fun k =>
    { dest := k, va := j.src + j.first k * j.es, len := j.pieceLen k,
      window := if j.stages then (j.member k).stgWin else (j.member k).dstWin,
      off := if j.stages then j.stageAt j.rank else j.shardAt k, allgather := false, shard := k }
  else if j.op = opBroadcast && j.rank ≠ j.root then []
  else j.others.map fun k =>
    { dest := k, va := j.src, len := j.pieceLen j.rank, window := (j.member k).dstWin, off := j.shardAt j.rank, allgather := true,
      shard := j.rank }

/-- The finished shard, sent to every other member in the allgather phase; REDUCE_SCATTER has none. -/
def CollJob.spreads (j : CollJob) : List Piece :=
  if !j.reduces || j.op = opScatter then []
  else j.others.map fun k =>
    { dest := k, va := j.dst + j.shardAt j.rank, len := j.pieceLen j.rank, window := (j.member k).dstWin, off := j.shardAt j.rank,
      allgather := true, shard := j.rank }

def bytesOf (ps : List Piece) : Nat := (ps.map Piece.len).sum

/-- The shards that others send in the allgather phase, in a broadcast the root's. -/
def CollJob.awaits (j : CollJob) : List Nat :=
  if j.op = opScatter then []
  else if j.op = opBroadcast then (if j.rank = j.root then [] else [j.root])
  else j.others

/-! ### Elements -/

/-- n-byte elements of a list of bytes. -/
def elemsOf (es : Nat) (bs : List Byte) : List Nat := (List.range (bs.length / max 1 es)).map fun i => leNat ((bs.drop (i * es)).take es)

/-- The accumulator format (R344). -/
def accFmt (ty : Nat) : FpFmt := if ty = 1 then fpF64 else fpF32

def isIntType (ty : Nat) : Bool := ty = 7 || ty = 8

/-- combine on values of format f, or on 32-bit integers (R340, R344). -/
def collCombine (op ty : Nat) (f : FpFmt) (a b : Nat) : Nat :=
  if isIntType ty then
    if op = 2 then (if ty = 7 then (if sextNat 32 b < sextNat 32 a then b else a) else min a b)
    else if op = 3 then (if ty = 7 then (if sextNat 32 a < sextNat 32 b then b else a) else max a b)
    else (a + b) % 2 ^ 32
  else if op = 2 then f.minMax false a b
  else if op = 3 then f.minMax true a b
  else (Fp.round f (Fp.add (Fp.decode f a) (Fp.decode f b))).bits

/-- One addition of the unordered mode, in DTYPE (R343). -/
def collAdd (op ty a b : Nat) : Nat := collCombine op ty ((fmtOfCode ty).getD fpF32) a b

def collWiden (ty a : Nat) : Nat :=
  if isIntType ty then a else (Fp.round (accFmt ty) (Fp.decode ((fmtOfCode ty).getD fpF32) a)).bits

def collNarrow (ty a : Nat) : Nat :=
  if isIntType ty then a else (Fp.round ((fmtOfCode ty).getD fpF32) (Fp.decode (accFmt ty) a)).bits

/-- The ordered reduction of one element's contributions, rank 0 first (R344). -/
def collOrdered (op ty : Nat) : List Nat → Nat
  | [] => 0
  | c :: cs => collNarrow ty (cs.foldl (fun acc x => collCombine op ty (accFmt ty) acc (collWiden ty x)) (collWiden ty c))

/-! ### The engine's own accesses -/

/-- Reading n bytes, line by line; poison ends the member (R346), and so does a window, which a contribution cannot lie in. -/
def Dev.readVa (s : Stream) (rq : Rq) : Nat → Nat → Nat → Dev → Option (List Byte) × Dev
  | 0, _, _, d => (some [], d)
  | fuel + 1, va, n, d =>
    if n = 0 then (some [], d)
    else if 2 ^ 57 ≤ va then (none, d.raise s.q s.slot errRangeFault)
    else
      let k := min n (64 - va % 64)
      match d.place s va k false with
      | (.at_ (.memory pa), d) =>
        match Dev.pocBytes rq pa k d with
        | none => (none, d)
        | some ((bs, bad), d) =>
          if bad then (none, d.raise s.q s.slot errPoison)
          else match Dev.readVa s rq fuel (va + k) (n - k) d with
            | (some t, d) => (some (bs ++ t), d)
            | (none, d) => (none, d)
      | (.at_ (.window _ _), d) => (none, d.raise s.q s.slot errRangeFault)
      | (.at_ .nowhere, d) =>
        let (bs, d) := Dev.drawBytes k d
        match Dev.readVa s rq fuel (va + k) (n - k) d with
        | (some t, d) => (some (bs ++ t), d)
        | (none, d) => (none, d)
      | (_, d) => (none, d)

/-- Writing bytes into DST, an INPLACE output. -/
def Dev.writeVa (s : Stream) (rq : Rq) : Nat → Nat → List Byte → Dev → Bool × Dev
  | 0, _, _, d => (true, d)
  | fuel + 1, va, bs, d =>
    if bs = [] then (true, d)
    else if 2 ^ 57 ≤ va then (false, d.raise s.q s.slot errRangeFault)
    else
      let k := min bs.length (64 - va % 64)
      match d.place s va k true with
      | (.at_ (.memory pa), d) =>
        match Dev.pocStore rq pa (bs.take k) d with
        | none => (false, d)
        | some d => Dev.writeVa s rq fuel (va + k) (bs.drop k) d
      | (.at_ (.window _ _), d) => (false, d.raise s.q s.slot errRangeFault)
      | (.at_ .nowhere, d) => Dev.writeVa s rq fuel (va + k) (bs.drop k) d
      | (_, d) => (false, d)

/-! ### Segments that arrive (R342) -/

/-- The running COLLECTIVE commands of a group. -/
def Dev.groupJobs (d : Dev) (group : Nat) : List CollJob :=
  d.allCmds.filterMap fun x => match x.2.body with
    | .collective j => if x.2.st = .running && j.group = group then some j else none
    | _ => none

/-- Entries whose epoch is older than every running command of their group are reclaimed (R346). -/
def Dev.reclaimArrivals (d : Dev) : Dev :=
  let keep (x : Arrival) : Bool :=
    let js := d.groupJobs x.group
    js = [] || js.any fun j => j.epoch ≤ x.epoch
  d.setReel { d.reel with arrivals := d.reel.arrivals.filter keep }

def Arrival.is (x : Arrival) (bridge group epoch : Nat) : Bool := x.bridge = bridge && x.group = group && x.epoch = epoch

def Dev.arrival? (d : Dev) (bridge group epoch : Nat) : Option Arrival := d.reel.arrivals.find? fun x => x.is bridge group epoch

def Dev.putArrival (d : Dev) (x : Arrival) : Dev :=
  let rest := d.reel.arrivals.filter (fun y => !y.is x.bridge x.group x.epoch)
  d.setReel { d.reel with arrivals := rest ++ [x] }

/-- The entry of a key, created where it is not yet present; none when the engine's 256 entries are in use. -/
def Dev.openArrival (d : Dev) (bridge group epoch : Nat) : Option Arrival :=
  match d.arrival? bridge group epoch with
  | some x => some x
  | none =>
    if (d.reel.arrivals.filter fun x => x.bridge = bridge).length < 256 then
      some { bridge := bridge, group := group, epoch := epoch, arrived := [], waiting := [], finished := [] }
    else none

def SegCount.is (x : SegCount) (rank : Nat) (ag : Bool) (shard window : Nat) : Bool :=
  x.rank = rank && x.allgather = ag && x.shard = shard && x.window = window

def Arrival.bytesFrom (x : Arrival) (rank : Nat) (ag : Bool) (shard window : Nat) : Nat :=
  match x.arrived.find? (fun y => y.is rank ag shard window) with
  | some y => y.bytes
  | none => 0

def Arrival.count (x : Arrival) (rank : Nat) (ag : Bool) (shard window n : Nat) : Arrival :=
  let rest := x.arrived.filter fun y => !y.is rank ag shard window
  { x with arrived := rest ++
      [{ rank := rank, allgather := ag, shard := shard, window := window, bytes := x.bytesFrom rank ag shard window + n }] }

/-- How a segment is answered. -/
inductive SegSays where
  | taken | retry | refused
  deriving DecidableEq, Repr

/-- A segment arrives at an engine: its window access is checked (R230); bytes to be added wait for the owner's own piece (R343),
others are written at once. -/
def Dev.segmentIn (bridge src window off key group epoch rank : Nat) (ag add : Bool) (shard : Nat) (bs : List Byte) (d : Dev) :
    SegSays × Dev :=
  match d.admitRemote src window off key false (!add) add with
  | (none, d) => (.refused, d)
  | (some (pa, owner), d) =>
    match d.admitRemote src window (off + bs.length - 1) key false (!add) add with
    | (none, d) => (.refused, d)
    | (some _, d) =>
      let d := d.reclaimArrivals
      match d.openArrival bridge group epoch with
      | none => (.retry, d)
      | some x =>
        let x := x.count rank ag shard window bs.length
        if add then
          (.taken, d.putArrival { x with waiting := x.waiting ++
            [{ rank := rank, shard := shard, pa := pa, bytes := bs, window := window, stale := false }] })
        else match Dev.pocStore (receiverRq owner) pa bs d with
          | none => (.retry, d)
          | some d => (.taken, d.putArrival x)

/-- COLLECTIVE_SEGMENT: answered like any window access of another module. -/
def Dev.segmentArrives (bridge : Nat) (m : SegMsg) (d : Dev) : Dev :=
  let src := m.src.toNat
  match Dev.segmentIn bridge src m.window.toNat m.off.toNat m.key.toNat m.group.toNat m.epoch.toNat m.rank.toNat m.allgather
      m.add m.shard.toNat m.bytes d with
  | (.taken, d) => d.emit (.reel src reelAck [m.id.toNat])
  | (.retry, d) => d.emit (.reel src reelRetry [m.id.toNat])
  | (.refused, d) => d.refuseRemote src m.window.toNat m.off.toNat m.id.toNat

/-! ### One member -/

/-- The engine's requests. -/
def CollJob.rq (j : CollJob) (s : Stream) : Rq := { part := s.part, ctx := some s.ctx, quad := some (j.bridge / 3), num := collNum j.bridge }

/-- A member's pieces may have arrived at any engine of its module: a window's own home need not be DST's (R342). -/
def Dev.arrivals (d : Dev) (j : CollJob) : List Arrival := d.reel.arrivals.filter fun x => x.group = j.group && x.epoch = j.epoch

/-- Does rank r receive anything? -/
def CollJob.receives (j : CollJob) (r : Nat) : Bool :=
  let m := { j with rank := r }
  m.others ≠ [] && ((m.reduces && 0 < m.pieceLen r) || m.awaits.any fun k => 0 < m.pieceLen k)

/-- A member of this module has finished with its key: the entry is freed once every member here that receives anything has. -/
def Dev.finishArrivals (d : Dev) (j : CollJob) : Dev :=
  let me := d.get fRelModuleIdId
  let here := (List.range j.n).filter fun r => (j.member r).module_ = me && j.receives r
  let mark (x : Arrival) : Arrival :=
    if x.group = j.group && x.epoch = j.epoch then { x with finished := insertNat x.finished j.rank } else x
  let ended (x : Arrival) : Bool := x.group = j.group && x.epoch = j.epoch && here.all fun r => x.finished.contains r
  d.setReel { d.reel with arrivals := (d.reel.arrivals.map mark).filter fun x => !ended x }

/-- The engine that receives through a window: that of the quadrant that homes the window's first line, or bridge 1. -/
def Dev.windowBridge (d : Dev) (w : Nat) : Nat :=
  match d.windowEntry w with
  | (some e, _) =>
    let pa := natBitsAt (e.getD 0 0).toNat 0 40 * 4096
    if isHbm pa then 3 * ((d.hbmPlace pa).1 / 6) + 1 else 1
  | _ => 1

/-- A segment for a member of this module: a refusal ends the member with RANGE_FAULT, with a WINDOW record (R230, R346), a full table or a missing token
leaves it to be sent again. -/
def Dev.deliverHere (s : Stream) (j : CollJob) (p : Piece) (o : Nat) (bs : List Byte) (d : Dev) : Bool × Dev :=
  let me := d.get fRelModuleIdId
  match Dev.segmentIn (d.windowBridge p.window) me p.window (p.off + o) (j.member p.dest).key j.group j.epoch j.rank p.allgather
      (j.reduces && !p.allgather && !j.ordered) p.shard bs d with
  | (.taken, d) => (true, d)
  | (.retry, d) => (false, d)
  | (.refused, d) =>
    let d := (d.bump fXltWinStatRefused 1).log 4 noneByte noneByte 0 0 (p.off + o) [me, p.window]
    (false, (d.errorRecord s.part s.q causeWindow (p.va + o) (RemoteKind.accessBits .segment) false).raise s.q s.slot errRangeFault)

/-- A segment for another module. -/
def Dev.deliverAway (s : Stream) (j : CollJob) (p : Piece) (o : Nat) (bs : List Byte) (d : Dev) : Bool × Dev :=
  let w : WinRef := { module_ := (j.member p.dest).module_, window := p.window, key := (j.member p.dest).key }
  let add := j.reduces && !p.allgather && !j.ordered
  match d.sendAccess s none 0 w (p.off + o) (p.va + o) .segment reelSegment
      ([j.group, j.epoch, j.rank, if p.allgather then 1 else 0, if add then 1 else 0, p.shard] ++ bs.map BitVec.toNat) with
  | (some _, d) => (true, d)
  | (none, d) => (false, d)

def Dev.deliver (s : Stream) (j : CollJob) (p : Piece) (o : Nat) (bs : List Byte) (d : Dev) : Bool × Dev :=
  if (j.member p.dest).module_ = d.get fRelModuleIdId then Dev.deliverHere s j p o bs d else Dev.deliverAway s j p o bs d

/-- The piece that byte i of a list of pieces lies in, and its offset there. -/
def pieceAt : List Piece → Nat → Option (Piece × Nat)
  | [], _ => none
  | p :: t, i => if i < p.len then some (p, i) else pieceAt t (i - p.len)

/-- Sending as much as can be sent, byte i onward. -/
def Dev.sendSome (s : Stream) (rq : Rq) (j : CollJob) (ps : List Piece) : Nat → Nat → Dev → Nat × Dev
  | 0, i, d => (i, d)
  | fuel + 1, i, d =>
    match pieceAt ps i with
    | none => (i, d)
    | some (p, o) =>
      let n := min 64 (p.len - o)
      match Dev.readVa s rq n (p.va + o) n d with
      | (none, d) => (i, d)
      | (some bs, d) =>
        match Dev.deliver s j p o bs d with
        | (false, d) => (i, d)
        | (true, d) => Dev.sendSome s rq j ps fuel (i + n) d

/-- Writing the member's own contribution into its DST. -/
def Dev.ownSome (s : Stream) (rq : Rq) (j : CollJob) : Nat → Nat → Dev → Nat × Dev
  | 0, i, d => (i, d)
  | fuel + 1, i, d =>
    let n := min 64 (j.ownLen - i)
    if n = 0 then (i, d)
    else match Dev.readVa s rq n (j.ownSrc + i) n d with
      | (none, d) => (i, d)
      | (some bs, d) =>
        match Dev.writeVa s rq n (j.dst + j.shardAt j.rank + i) bs d with
        | (false, d) => (i, d)
        | (true, d) => Dev.ownSome s rq j fuel (i + n) d

/-- Adding one piece to the shard in the shared cache (R343); a poisoned shard ends the member. -/
def Dev.addPiece (s : Stream) (rq : Rq) (j : CollJob) (x : Segment) (d : Dev) : Bool × Dev :=
  match Dev.pocBytes rq x.pa x.bytes.length d with
  | none => (false, d)
  | some ((old, bad), d) =>
    if bad then (false, d.raise s.q s.slot errPoison)
    else
      let vs := (List.range (old.length / max 1 j.es)).map fun i =>
        collAdd j.op j.dtype ((elemsOf j.es old).getD i 0) ((elemsOf j.es x.bytes).getD i 0)
      match Dev.pocStore rq x.pa (vs.flatMap (leBytes j.es)) d with
      | none => (false, d)
      | some d => (true, d)

/-- Adding the pieces that wait for this member, in the order they arrived. -/
def Dev.addSome (s : Stream) (rq : Rq) (j : CollJob) : Nat → Nat → Dev → Nat × Dev
  | 0, i, d => (i, d)
  | fuel + 1, i, d =>
    match (d.arrivals j).findSome? (fun x => (x.waiting.find? (fun y => y.shard = j.rank)).map fun y => (x, y)) with
    | none => (i, d)
    | some (x, y) =>
        match Dev.addPiece s rq j y d with
        | (false, d) => (i, d)
        | (true, d) => Dev.addSome s rq j fuel (i + y.bytes.length) (d.putArrival { x with waiting := x.waiting.erase y })

/-- Have the bytes of a shard arrived from a rank? -/
def Dev.arrivedAll (d : Dev) (j : CollJob) (rank : Nat) (ag : Bool) (shard window len : Nat) : Bool :=
  len ≤ ((d.arrivals j).map fun x => x.bytesFrom rank ag shard window).sum

/-- All N - 1 pieces of the member's shard lie in its staging buffer (R344). -/
def Dev.staged (d : Dev) (j : CollJob) : Bool :=
  j.others.all fun r => d.arrivedAll j r false j.rank (j.member j.rank).stgWin (j.pieceLen j.rank)

/-- Bytes of its shard that the member combines in rank order. -/
def CollJob.combineLen (j : CollJob) : Nat := if j.stages then j.pieceLen j.rank else 0

/-- Is its shard finished? -/
def CollJob.finished (j : CollJob) : Bool :=
  j.own = j.ownLen && j.combined = j.combineLen && (!j.reduces || j.stages || j.added = j.others.length * j.pieceLen j.rank)

/-- Has every shard that others finish arrived? -/
def Dev.gatheredAll (d : Dev) (j : CollJob) : Bool :=
  j.awaits.all fun k => d.arrivedAll j k true k (j.member j.rank).dstWin (j.pieceLen k)

/-- The engine's work on one member, as far as it can go: its own contribution, its pieces, the pieces that others added, and once its
shard is finished the allgather phase. -/
def Dev.collWork (s : Stream) (j : CollJob) (d : Dev) : CollJob × Dev :=
  let rq := j.rq s
  let (own, d) := Dev.ownSome s rq j j.ownLen j.own d
  let j := { j with own := own }
  let (sent, d) := Dev.sendSome s rq j j.sends (bytesOf j.sends) j.sent d
  let j := { j with sent := sent }
  let (added, d) := if j.own = j.ownLen then Dev.addSome s rq j (j.n * (j.pieceLen j.rank + 1)) j.added d else (j.added, d)
  let j := { j with added := added }
  let (spread, d) := if j.finished then Dev.sendSome s rq j j.spreads (bytesOf j.spreads) j.spread d else (j.spread, d)
  let j := { j with spread := spread }
  ({ j with done := j.finished && j.sent = bytesOf j.sends && j.spread = bytesOf j.spreads && d.gatheredAll j }, d)

def Dev.putColl (d : Dev) (q slot : Nat) (j : CollJob) : Dev :=
  match d.cmd? q slot with
  | none => d
  | some c => d.putCmd q { c with body := .collective j }

/-- COLLECTIVE: the run of one member (R342). -/
def Dev.collRun (q slot : Nat) (d : Dev) : Dev :=
  match d.runs? q slot with
  | none => d
  | some c =>
    match c.body with
    | .collective j =>
      let (j, d) := Dev.collWork (d.stream callerTile q slot) j d
      (if j.done then d.finishArrivals j else d).putColl q slot j
    | _ => d

/-! ### Ordered combination (R344) -/

/-- The contributions to bytes [i, i + n) of the shard, by rank: from staging, the member's own from SRC. -/
def Dev.readRanks (s : Stream) (rq : Rq) (j : CollJob) (stg i n : Nat) : List Nat → Dev → Option (List (List Byte)) × Dev
  | [], d => (some [], d)
  | r :: t, d =>
    let va := if r = j.rank then j.src + j.first j.rank * j.es + i else stg + j.stageAt r + i
    match Dev.readVa s rq n va n d with
    | (none, d) => (none, d)
    | (some bs, d) =>
      match Dev.readRanks s rq j stg i n t d with
      | (none, d) => (none, d)
      | (some l, d) => (some (bs :: l), d)

/-- The combined bytes of n bytes of each rank's piece. -/
def CollJob.combineBytes (j : CollJob) (n : Nat) (cs : List (List Byte)) : List Byte :=
  let es := cs.map (elemsOf j.es)
  (List.range (n / max 1 j.es)).flatMap fun e => leBytes j.es (collOrdered j.op j.dtype (es.map fun l => l.getD e 0))

def Dev.combineSome (s : Stream) (rq : Rq) (j : CollJob) (stg : Nat) : Nat → Nat → Dev → Nat × Dev
  | 0, i, d => (i, d)
  | fuel + 1, i, d =>
    let n := min 64 (j.combineLen - i)
    if n = 0 then (i, d)
    else match Dev.readRanks s rq j stg i n (List.range j.n) d with
      | (none, d) => (i, d)
      | (some cs, d) =>
        match Dev.writeVa s rq n (j.dst + j.shardAt j.rank + i) (j.combineBytes n cs) d with
        | (false, d) => (i, d)
        | (true, d) => Dev.combineSome s rq j stg fuel (i + n) d

/-- ORDERED_COMBINE: once every piece has arrived, the owner combines them in rank order. -/
def Dev.collCombineRun (q slot : Nat) (d : Dev) : Dev :=
  match d.runs? q slot with
  | none => d
  | some c =>
    match c.body with
    | .collective j =>
      match j.staging with
      | none => d
      | some stg =>
        if !d.staged j then d
        else
          let s := d.stream callerTile q slot
          let (i, d) := Dev.combineSome s (j.rq s) j stg j.combineLen j.combined d
          d.putColl q slot { j with combined := i }
    | _ => d

end Sys2Proof.Machine
end

