-- ==== Sys2Proof/Machine/Reel.lean ====
section
/-! DEFINITION. The meanings of the Reel and collective commands (14 R331 to R346). -/

namespace Sys2Proof.Machine

open Sys2Proof

/-! ### Ports (R331, R332, R403) -/

/-- A port goes DOWN (R332, R335). -/
def Dev.reelDown (d : Dev) (port : Nat) : Dev := (d.set fRelPortStatState 0 port).portDown port

/-- A data wavelength is lost: the port runs on the rest, a spare is proposed, and below 4 the port is DOWN. -/
def Dev.reelLoss (port wl : Nat) (d : Dev) : Dev :=
  if !(d.get fRelPortStatWlMap port).testBit wl then d
  else
    let d := d.setReel { d.reel with lost := smapPut d.reel.lost port (smapGet d.reel.lost port [] ++ [wl]) }
    let d := (d.setBit fRelPortStatWlMap wl false port).set fRelPortStatDataWl (d.get fRelPortStatDataWl port - 1) port
    let d := d.recordChange.log 6 (57 + 3 * (port / 4)) noneByte 0 0 0 [port, wl]
    let d := d.propose kindReel (57 + 3 * (port / 4)) (port + 16 * wl) 1
    if d.get fRelPortStatDataWl port < 4 && d.get fRelPortStatState port = portUp then d.reelDown port else d

/-- The wavelengths that carry data after training: those of 0 to 7 not lost, and the spares cut in (R331, R404). -/
def Dev.reelData (d : Dev) (port : Nat) : List Nat :=
  (List.range 10).filter fun i =>
    (i < 8 || (smapGet d.reel.wlCuts port []).contains i) && !(smapGet d.reel.lost port []).contains i

/-- A port completes training after reset, or is found dark (R403). -/
def Dev.reelTrained (port : Nat) (up : Bool) (d : Dev) : Dev :=
  let st := d.get fMntBootStatStage
  if st ≠ 4 && st ≠ 5 then d
  else
    let d := d.setReel { d.reel with settled := insertNat d.reel.settled port }
    if !up then d.reelDown port
    else
      let ws := d.reelData port
      let d := d.set fRelPortStatWlMap ((ws.map fun i => 2 ^ i).sum) port
      let d := d.set fRelPortStatDataWl ws.length port
      let d := d.set fRelPortStatSpares (2 - (smapGet d.reel.wlCuts port []).length) port
      d.set fRelPortStatState (if ws.length < 4 then 0 else portUp) port

/-! ### Remote fences (R338, R339) -/

/-- The operation of a fence message on a local fence. -/
def fenceOpOf (pl : FencePlace) : FenceMsg → FenceOp
  | .absolute v => .absolute pl v 0 0
  | .relative v q slot => .relative pl v q.toNat slot.toNat
  | .error code q slot posted => .error pl code.toNat q.toNat slot.toNat posted

/-- A remote signal or error store arrives: its entry must grant WRITE and ATOMIC, and its fence object lies on a line (R267); it is answered RETRY where it
must wait (R333). -/
def Dev.remoteFence (src window off key : Nat) (m : FenceMsg) (id : Nat) (d : Dev) : Dev :=
  match d.admitRemote src window off key false true true with
  | (none, d) => d.refuseRemote src window off id
  | (some (pa, owner), d) =>
    match d.applyFence (receiverRq owner) owner (fenceOpOf (.local_ pa) m) pa with
    | none => d.emit (.reel src reelRetry [id])
    | some d => d.emit (.reel src reelAck [id])

/-- A signal without a route is tried again each 1 ms for 100 ms, then discarded and logged. -/
def Dev.signalRetry (id : Nat) (d : Dev) : Dev :=
  match d.remote? id with
  | none => d
  | some r =>
    match r.kind with
    | .fence _ =>
      if r.port.isSome then d
      else match d.routePort r.win.module_ r.q r.win.window with
        | some port =>
          let put (x : Remote) : Remote := if x.id = id then { x with port := some port } else x
          (d.setReel { d.reel with remotes := d.reel.remotes.map put }).emit r.message
        | none =>
          if 100 ≤ r.tries + 1 then d.signalLost r
          else
            let put (x : Remote) : Remote := if x.id = id then { x with tries := x.tries + 1 } else x
            d.setReel { d.reel with remotes := d.reel.remotes.map put }
    | _ => d

/-! ### The rows -/

/-- REEL_WAVELENGTH_LOSS (R332). -/
def execReelWavelengthLoss (port : Fin 16) (wl : Fin 10) (s : State) : Out := s.live (Dev.reelLoss port.val wl.val)

/-- REEL_PORT_TRAINING (R403). -/
def execReelPortTraining (port : Fin 16) (up : Bool) (s : State) : Out := s.live (Dev.reelTrained port.val up)

/-- REMOTE_FENCE_SIGNAL (R338). -/
def execRemoteFenceSignal (src : BitVec 12) (window : BitVec 16) (off : W64) (key : W32) (m : FenceMsg) (id : W32)
    (s : State) : Out :=
  s.live (Dev.remoteFence src.toNat window.toNat off.toNat key.toNat m id.toNat)

/-- REMOTE_SIGNAL_RETRY (R339). -/
def execRemoteSignalRetry (id : W32) (s : State) : Out := s.live (Dev.signalRetry id.toNat)

/-- COLLECTIVE (R342). -/
def execCollective (q : Fin 16384) (slot : W32) (s : State) : Out := s.live (Dev.collRun q.val slot.toNat)

/-- ORDERED_COMBINE (R344). -/
def execOrderedCombine (q : Fin 16384) (slot : W32) (s : State) : Out := s.live (Dev.collCombineRun q.val slot.toNat)

/-- COLLECTIVE_SEGMENT (R342). -/
def execCollectiveSegment (bridge : Fin 12) (m : SegMsg) (s : State) : Out := s.live (Dev.segmentArrives bridge.val m)

end Sys2Proof.Machine
end

