-- ==== Sys2Proof/Machine/Sched.lean ====
section
/-! DEFINITION. Barriers (02 R42 to R45), ring fills (R47 to R50, 03 R89), NSPLIT and STATF (R38, R90, R131, R134, 06 R159),
scheduling of groups and troupes (R25, R28), and residue failures (R32, 04 R116). -/

namespace Sys2Proof.Machine

open Sys2Proof

/-! ### Barriers -/

/-- Do the release and acquire of a BAR.UNIT act on the near cache (R44, R156)? The scope is S3 for a tile and wider for a
gang. -/
def Run.barNear (r : Run) : Bool := r.hdr.unit = unitTile || r.hdr.unit = unitGang

/-- BAR.UNIT (R42 to R44): the group releases, arrives and waits past the instruction. -/
def execBarUnit (w : Who) (o : COp) (s : State) : Out :=
  s.live fun d => d.issue w false [] (fun _ _ _ => false) fun c r g =>
    let eff := g.eff o.pr
    if eff = 0 then d.putThr w c r g.step
    else if eff ≠ g.live then d.instError w c r g errBarrierDivergent
    else
      let d := if r.barNear then d.cleanNear w.core.val else d
      let c := d.core w.core.val
      (d.stall w c r g.step (.barrier (o.offa.toNat % 16))).checkBarriers r

/-- Waiting groups of a run made ready. -/
def Run.wakeBarrier (r : Run) (b : Nat) : Run :=
  { r with
    clock := r.clock + 1
    groups := smapMap (fun _ g => if g.sched = .pendingWait (.barrier b) then
      { g with sched := .pendingReady, since := r.clock } else g) r.groups }

/-- BARRIER_RELEASE (R43 to R45): every live group of the troupe waits at the barrier; all go on, having acquired. -/
def execBarrierRelease (core : Fin 768) (barrier : Fin 16) (s : State) : Out :=
  s.live fun d =>
    match (d.core core.val).run with
    | none => d
    | some r =>
      let gs := d.troupeLive r
      if gs = [] || !allAt gs barrier.val then d
      else (d.troupeRuns r).foldl (fun d x =>
        let d := if r.barNear then d.acquireNear x.1 else d
        d.setCore x.1 { d.core x.1 with run := some (x.2.wakeBarrier barrier.val) }) d

/-! ### Ring fills -/

/-- A fill's total bytes. -/
def Fill.size (f : Fill) : Nat := f.rowBytes * f.rows

/-- The layout errors of RFILL (R89): ILLEGAL_INSTRUCTION before RANGE_FAULT. -/
def rfillError (x : Ring) (a l : Nat) : Option Nat :=
  let rb := natBitsAt l 0 16
  let rows := natBitsAt l 16 16
  if rb = 0 || rb % 16 ≠ 0 || rows = 0 || rows * rb > x.slotSize then some errIllegal
  else if a % 16 ≠ 0 || natBitsAt l 32 32 % 16 ≠ 0 || 2 ^ 57 ≤ a then some errRange
  else none

/-- RFILL (R47, R48, R89): the ring's next slot, if it is EMPTY and fewer than 8 fills are under way, becomes FILLING. -/
def execRfill (w : Who) (o : ROp) (s : State) : Out :=
  s.live fun d => d.issue w true [] (fun _ r _ => !thrIsLead w.thr || o.h.toNat ≥ r.hdr.rings.length) fun c r g =>
    if g.eff o.pr = 0 then d.putThr w c r g.step
    else match r.rings[o.h.toNat]? with
      | none => d
      | some x =>
        let a := (g.ureg o.ua.toNat).toNat
        let l := (g.ureg o.ul.toNat).toNat
        match rfillError x a l with
        | some e => d.instError w c r g e
        | none =>
          if x.fills.length ≥ x.slots || (x.fills.countP fun f => !f.arrived) ≥ 8 then d
          else
            let f : Fill := { num := x.next, va := a, rowBytes := natBitsAt l 0 16, rows := natBitsAt l 16 16,
                              stride := natBitsAt l 32 32, bytes := [], arrived := false, poisoned := false }
            let x' : Ring := { x with next := x.next + 1, fills := x.fills ++ [f] }
            d.putThr w c { r with rings := r.rings.set o.h.toNat x' } g.step

/-- Reading a fill's next bytes, line by line, until it is whole or must wait (R165, R223). Bytes that come over Reel stand as 0
until they arrive. An address past 2^57 ends the command. -/
def Dev.readFill (k : Nat) (r : Run) (ring : Nat) : Nat → Fill → Dev → Fill × Dev
  | 0, f, d => (f, d)
  | fuel + 1, f, d =>
    let done := f.bytes.length
    if f.size ≤ done then (f, d)
    else
      let va := f.va + done / f.rowBytes * f.stride + done % f.rowBytes
      let n := min (f.rowBytes - done % f.rowBytes) (64 - va % 64)
      let lead : Who := { core := Fin.ofNat 768 k, thr := .lead (Fin.ofNat 16 ring) }
      if 2 ^ 57 ≤ va then (f, (d.stopThread r.q r.slot (some lead)).raise r.q r.slot errRange)
      else match d.coreLookup k r.ctx (va / 4096) .read with
        | (none, d) =>
          (f, d.miss (k / 16) r.ctx (va / 4096)
            { q := r.q, slot := r.slot, slotRead := false, who := some lead, access := .read, fill := true, va := va })
        | (some t, d) =>
          match d.spotOf r.part r.q r.slot t va n false with
          | (.at_ (.memory pa), d) =>
            match d.pocRead (r.rq k) (pa / 64) with
            | none => (f, d)
            | some ((l, bad), d) =>
              Dev.readFill k r ring fuel
                { f with bytes := f.bytes ++ leBytes n (lineField l (pa % 64) n), poisoned := f.poisoned || bad } d
          | (.at_ (.window win off), d) =>
            match d.sendAccess (r.stream k) (some lead) 0 win off va
                (.fill ring f.num done n) reelRead [n] with
            | (some _, d) => Dev.readFill k r ring fuel { f with bytes := f.bytes ++ List.replicate n 0 } d
            | (none, d) => (f, d)
          | (.at_ .nowhere, d) =>
            let (bs, d) := Dev.drawBytes n d
            Dev.readFill k r ring fuel { f with bytes := f.bytes ++ bs } d
          | (_, d) => (f, d)

/-- Replacing a fill of a ring. -/
def Run.putFill (r : Run) (h : Nat) (f : Fill) : Run :=
  match r.rings[h]? with
  | none => r
  | some x => { r with rings := r.rings.set h { x with fills := x.fills.map fun y => if y.num = f.num then f else y } }

/-- Are answers over Reel to a fill outstanding? -/
def Dev.fillAway (d : Dev) (k ring num : Nat) : Bool :=
  d.reel.remotes.any fun m => (match m.who with
    | some w => w.core.val = k
    | none => false) && (match m.kind with
    | .fill h n _ _ => h = ring && n = num
    | _ => false)

/-- RING_FILL_COMPLETE (R48, R50): a fill reads its source; once every byte is there the slot holds it, and the slot is FULL
once every earlier slot of the ring is. -/
def execRingFillComplete (core : Fin 768) (ring : Fin 16) (fill : Nat) (s : State) : Out :=
  s.live fun d =>
    match (d.core core.val).run with
    | none => d
    | some r =>
      match (r.rings[ring.val]?).bind fun x => x.fills.find? fun f => f.num = fill && !f.arrived with
      | none => d
      | some f =>
        if (d.core core.val).stopped then d
        else
          let (f, d) := d.readFill core.val r ring.val (f.size + 1) f
          let r := r.putFill ring.val f
          let r := if f.bytes.length = f.size && !d.fillAway core.val ring.val fill then
              (r.fillArrives ring.val fill).settleRing ring.val else r
          d.setCore core.val { d.core core.val with run := some r }

/-! ### System instructions -/

/-- NSPLIT (R38, R90, R159): the near cache takes bytes from scratch or gives them back as 0; what no longer fits is written
back first, and the lines that joined earliest stay (DESIGN CHOICE, log 121). -/
def execNsplit (w : Who) (o : SOp) (s : State) : Out :=
  s.live fun d => d.issue w false [] (fun _ _ _ => o.imm32.toNat % 32 > 16) fun c r g =>
    let n := o.imm32.toNat % 32
    if g.eff o.pr = 0 then d.putThr w c r g.step
    else if 524288 < n * 32768 + r.spill + r.hdr.scratchBytes then d.instError w c r g errIllegal
    else
      let k := w.core.val
      let room := 512 * n
      let d := (c.near.drop room).foldl (fun d x => d.writeNear k x) d
      let size := 524288 - n * 32768 - r.spill
      let c := { d.core k with
        nearUnits := n, near := c.near.take room, stale := c.stale || (decide (c.nearUnits < n) && !c.invClean) }
      d.putThr w c { r with scratch := memClear r.scratch size 524288 } g.step

/-- The array, if any, with a drain of the group's that has STAT set and has not been counted yet (R113, R131). -/
def Run.statDrain (r : Run) (t : Thr) : Option Nat :=
  match t with
  | .lead _ => none
  | .group i => (List.range r.arrays.length).find? fun a =>
      match r.arrays[a]? with
      | some x => [x.bank0, x.bank1].any fun b => match b.st with
          | .draining dr => dr.g = i.val && dr.stat
          | _ => false
      | none => false

/-- STATF (R90, R131, R134): the record is stored at the point of coherence, line by line, and then cleared. The statistics record
waits for the group's drains that count into it. -/
def Dev.statf (w : Who) (o : SOp) (record : Grp → List Byte) (clear : Grp → Grp) (drains : Bool) (d : Dev) : Dev :=
  d.issue w true [] (fun _ _ _ => false) fun c r g =>
    if g.eff o.pr = 0 then d.putThr w c r g.step
    else match (if drains then r.statDrain w.thr else none) with
    | some a => d.stall w c r g (.drain a)
    | none =>
      let k := w.core.val
      let a := (g.ureg o.ua.toNat).toNat
      let bs := record g
      let all := BitVec.ofNat 64 (2 ^ (bs.length / 64) - 1)
      let left := g.todo.getD all
      let as := (threadsOf left).map fun i => (i, a + 64 * i)
      match d.precheck r true 64 64 (as.map (·.2)) with
      | some e => d.instError w c r g e
      | none =>
        match d.reach w r 64 .write as with
        | (_, some h, d) => d.memEnd w g left (some h) [] []
        | (accs, none, d) =>
          let val (i : Nat) : Nat := leNat ((bs.drop (64 * i)).take 64)
          let (ls, m, d) := d.stores w r false 64 val accs [] Made.start
          let (m, d) := if m.halt.isSome then (m, d) else d.lineWrites k (r.rq k) true ls m
          let g := if m.halt.isNone then clear g else g
          d.memEnd w g (left &&& ~~~m.done) m.halt [] []

/-- STATF of the tensor statistics record (R131). -/
def execStatfStatistics (w : Who) (o : SOp) (s : State) : Out :=
  s.live fun d => d.statf w o (fun g => g.stats.bytes) (fun g => { g with stats := Stats.zero }) true

/-- STATF of the monitor record (R134). -/
def execStatfMonitor (w : Who) (o : SOp) (s : State) : Out :=
  s.live fun d => d.statf w o (fun g => monitorBytes g.monitor) (fun g => { g with monitor := [] }) false

/-! ### Scheduling -/

/-- Has the event a group waits for happened (R28)? Barriers and arrays resolve by events of their own. -/
def Dev.resolved (d : Dev) (k : Nat) (r : Run) (gi : Nat) (g : Grp) : Why → Bool
  | .walk page => d.walkDone (k / 16) r.ctx page || (findXent (d.rcacheOf (k / 16)) r.ctx page).isSome
  | .shadow granule =>
    match d.cmd? r.q r.slot with
    | some c => !(c.outputs.any fun o => o.shadows.any fun s => s.granule = granule && s.copying)
    | none => false
  | .line pa => !d.mustWait (r.rq k) (pa / 64) true
  | .tokens n => (d.accepts n (r.rq k)).isSome
  | .remote ids | .acquire ids => !(d.reel.remotes.any fun m => ids.contains m.id)
  | .ring h =>
    match r.rings[h]? with
    | some x =>
      let f := (smapGet g.rings h RingUse.start).consume
      x.full f || r.neverFilled h f
    | none => false
  | .barrier _ => false
  | .array _ => false
  | .drain a =>
    match r.arrays[a]? with
    | some x => x.bank0.drainRegs gi = [] && x.bank1.drainRegs gi = []
    | none => true
  | .error => false
  | .resolved => true

/-- GROUP_WAKE (R28): a group whose event has happened becomes PENDING-READY; an acquire of remote data acts on the near cache first
(R154, R156). -/
def execGroupWake (core : Fin 768) (group : Fin 64) (s : State) : Out :=
  s.live fun d =>
    let c := d.core core.val
    match c.run with
    | none => d
    | some r =>
      match smapGet? r.groups group.val with
      | none => d
      | some g =>
        match g.sched with
        | .pendingWait why =>
          if d.resolved core.val r group.val g why then
            let d := match why with
              | .acquire _ => d.acquireNear core.val
              | _ => d
            d.setCore core.val { d.core core.val with run := some { r with
              clock := r.clock + 1
              groups := smapPut r.groups group.val { g with sched := .pendingReady, since := r.clock } } }
          else d
        | _ => d

/-- The running KERNEL that was granted a core, with the unit it is in. -/
def Dev.kernelOn (d : Dev) (k : Nat) : Option (Nat × Cmd × KernelJob × List Nat) :=
  d.allCmds.findSome? fun (q, c) =>
    match c.body with
    | .kernel j =>
      if c.st = .running && c.kill = none && c.sent = none && c.engines.all (fun e => e.order = .none) then
        (j.units.find? (fun u => u.contains k)).map fun u => (q, c, j, u)
      else none
    | _ => none

/-- TROUPE_START (R25, R37, R157): once the last group of the running troupe has exited, the KERNEL's next troupe starts on the
unit of the core. -/
def execTroupeStart (core : Fin 768) (s : State) : Out :=
  s.live fun d =>
    match d.kernelOn core.val with
    | none => d
    | some (q, c, _, _) =>
      let d := d.reapTroupes q c.slot
      match d.kernelOn core.val with
      | none => d
      | some (q, c, j, u) =>
        if j.next < j.troupes && u.all (fun k => (d.core k).run.isNone && (d.core k).takesGroups && d.tileUp (k / 16)) then
          d.startTroupe q c j u Dev.flushNear
        else d

/-! ### Residue checks -/

/-- LANE_RESIDUE_FAIL (R32, R405): the core stops; the lane is removed; where the spare lane would take its place, the core
takes no groups until the cut-in is approved. -/
def execLaneResidueFail (core : Fin 768) (lane : Fin 17) (s : State) : Out :=
  s.live fun d =>
    let k := core.val
    let c := d.core k
    if c.lanesFailed.contains lane.val then d
    else
      let first := c.lanesFailed = [] && !c.laneSpareLost
      let d := d.setCore k { c with lanesFailed := c.lanesFailed ++ [lane.val], lanePending := c.lanePending || first }
      let d := ((if first then d else d.recordChange.coreLoss k c).coreFault k).coreWear k
      if first then
        match d.siteOf (k / 16) with
        | some n =>
          let unit := k % 16 + 16 * lane.val
          let d := d.propose kindLane n unit 1
          if d.minuet.declined.contains (kindLane, n, unit, 1) then d.cutinRefused kindLane n unit else d
        | none => d
      else d

/-- What a failed column or row leaves of an array (R116). -/
def ArrayHw.fail (a : ArrayHw) : ColRow → ArrayHw
  | .column c => if a.failedCols.contains c.val then a else { a with failedCols := a.failedCols ++ [c.val] }
  | .row _ => { a with rowFailed := true }

/-- COLUMN_RESIDUE_FAIL (R116, R405): the core stops and its array is reconfigured; the first failed column waits for the
approval of the spare's cut-in. -/
def execColumnResidueFail (core : Fin 768) (array : Fin 4) (what : ColRow) (s : State) : Out :=
  s.live fun d =>
    let k := core.val
    let a := array.val
    match (d.core k).arrayHw[a]? with
    | none => d
    | some x =>
      let y := x.fail what
      if y = x then d
      else
        let first := x.failedCols = [] && !x.spareLost && !y.rowFailed
        let c := d.core k
        let d := d.setCore k (c.mapArray a fun _ => { y with pendingCutin := x.pendingCutin || first })
        let d := ((if first then d else d.recordChange.coreLoss k c).coreFault k).coreWear k
        match what, d.siteOf (k / 16) with
        | .column col, some n =>
          if !first then d
          else
            let unit := k % 16 + 16 * a + 64 * col.val
            let d := d.propose kindColumn n unit 1
            if d.minuet.declined.contains (kindColumn, n, unit, 1) then d.cutinRefused kindColumn n unit else d
        | _, _ => d

end Sys2Proof.Machine
end

