-- ==== Sys2Proof/Machine/Uniform.lean ====
section
/-! DEFINITION. Uniform instructions: majors 0x10 to 0x13 (03 R74, R75). They execute once when the effective mask is not
empty (R57), in follow groups and in lead threads (R60). -/

namespace Sys2Proof.Machine

open Sys2Proof

/-- A function of major 0x10 (R74) on u[US1] and the second source. -/
def Dev.uniFn (d : Dev) (w : Who) (o : UOp) (k : W64 → W64 → W64) : Dev :=
  d.uniform w o.pr (fun _ _ _ => false) fun _ _ g =>
    g.setUreg o.ud.toNat (k (g.ureg o.us1.toNat) (g.usrc2 o))

/-- UNI_ADD: the sum (R74). -/
def execUniAdd (w : Who) (o : UOp) (s : State) : Out := s.live fun d => d.uniFn w o fun a b => a + b

/-- UNI_SUB: the difference (R74). -/
def execUniSub (w : Who) (o : UOp) (s : State) : Out := s.live fun d => d.uniFn w o fun a b => a - b

/-- UNI_MUL: the low 64 bits of the product (R74). -/
def execUniMul (w : Who) (o : UOp) (s : State) : Out := s.live fun d => d.uniFn w o fun a b => a * b

/-- UNI_MULHU: the high 64 bits of the unsigned product (R74). -/
def execUniMulhu (w : Who) (o : UOp) (s : State) : Out := s.live fun d => d.uniFn w o fun a b => BitVec.ofNat 64 (a.toNat * b.toNat / 2 ^ 64)

/-- UNI_AND: and (R74). -/
def execUniAnd (w : Who) (o : UOp) (s : State) : Out := s.live fun d => d.uniFn w o fun a b => a &&& b

/-- UNI_OR: or (R74). -/
def execUniOr (w : Who) (o : UOp) (s : State) : Out := s.live fun d => d.uniFn w o fun a b => a ||| b

/-- UNI_XOR: exclusive or (R74). -/
def execUniXor (w : Who) (o : UOp) (s : State) : Out := s.live fun d => d.uniFn w o fun a b => a ^^^ b

/-- UNI_SHL: shift left, mod 64 (R74). -/
def execUniShl (w : Who) (o : UOp) (s : State) : Out := s.live fun d => d.uniFn w o fun a b => a <<< (b.toNat % 64)

/-- UNI_SHR: logical shift right, mod 64 (R74). -/
def execUniShr (w : Who) (o : UOp) (s : State) : Out := s.live fun d => d.uniFn w o fun a b => a >>> (b.toNat % 64)

/-- UNI_SAR: arithmetic shift right, mod 64 (R74). -/
def execUniSar (w : Who) (o : UOp) (s : State) : Out := s.live fun d => d.uniFn w o fun a b => a.sshiftRight (b.toNat % 64)

/-- UNI_MIN: signed minimum (R74). -/
def execUniMin (w : Who) (o : UOp) (s : State) : Out := s.live fun d => d.uniFn w o fun a b => if b.slt a then b else a

/-- UNI_MAX: signed maximum (R74). -/
def execUniMax (w : Who) (o : UOp) (s : State) : Out := s.live fun d => d.uniFn w o fun a b => if a.slt b then b else a

/-- UNI_UMIN: unsigned minimum (R74). -/
def execUniUmin (w : Who) (o : UOp) (s : State) : Out := s.live fun d => d.uniFn w o fun a b => if b.ult a then b else a

/-- UNI_UMAX: unsigned maximum (R74). -/
def execUniUmax (w : Who) (o : UOp) (s : State) : Out := s.live fun d => d.uniFn w o fun a b => if a.ult b then b else a

/-- UNI_MOV: the second source (R74). -/
def execUniMov (w : Who) (o : UOp) (s : State) : Out := s.live fun d => d.uniFn w o fun _ b => b

/-- UMOVI.LO (R74): zext(IMM32). -/
def execUmoviLo (w : Who) (o : UmoviOp) (s : State) : Out :=
  s.live fun d => d.uniform w o.pr (fun _ _ _ => false) fun _ _ g => g.setUreg o.ud.toNat (o.imm32.setWidth 64)

/-- UMOVI.HI (R74): the high word, the low word kept. -/
def execUmoviHi (w : Who) (o : UmoviOp) (s : State) : Out :=
  s.live fun d => d.uniform w o.pr (fun _ _ _ => false) fun _ _ g =>
    g.setUreg o.ud.toNat ((o.imm32 ++ (g.ureg o.ud.toNat).setWidth 32 : BitVec 64))

/-- A compare of major 0x12 (R74): p[PD] in every active thread. -/
def Dev.uniCmp (d : Dev) (w : Who) (o : UOp) (k : W64 → W64 → Bool) : Dev :=
  d.uniform w o.pr (fun _ _ _ => false) fun _ _ g =>
    g.setPred o.pd.toNat g.active (if k (g.ureg o.us1.toNat) (g.usrc2 o) then maskAll else 0)

/-- UCMP_EQ (R74). -/
def execUcmpEq (w : Who) (o : UOp) (s : State) : Out := s.live fun d => d.uniCmp w o fun a b => a == b

/-- UCMP_NE (R74). -/
def execUcmpNe (w : Who) (o : UOp) (s : State) : Out := s.live fun d => d.uniCmp w o fun a b => a != b

/-- UCMP_LT (R74). -/
def execUcmpLt (w : Who) (o : UOp) (s : State) : Out := s.live fun d => d.uniCmp w o fun a b => a.slt b

/-- UCMP_LE (R74). -/
def execUcmpLe (w : Who) (o : UOp) (s : State) : Out := s.live fun d => d.uniCmp w o fun a b => a.sle b

/-- UCMP_ULT (R74). -/
def execUcmpUlt (w : Who) (o : UOp) (s : State) : Out := s.live fun d => d.uniCmp w o fun a b => a.ult b

/-- UCMP_ULE (R74). -/
def execUcmpUle (w : Who) (o : UOp) (s : State) : Out := s.live fun d => d.uniCmp w o fun a b => a.ule b

/-- An identity read of major 0x13 (R75). -/
def Dev.uniRead (d : Dev) (w : Who) (o : UOp) (k : Core → Run → Grp → W64) : Dev :=
  d.uniform w o.pr (fun _ _ _ => false) fun c r g => g.setUreg o.ud.toNat (k c r g)

/-- UREAD_GIDX: the linear group index; 0 in a lead thread (R75). -/
def execUreadGidx (w : Who) (o : UOp) (s : State) : Out := s.live fun d => d.uniRead w o fun _ _ g => if thrIsLead w.thr then 0 else BitVec.ofNat 64 g.gidx

/-- UREAD_RANK: the rank; 0 in a lead thread (R75). -/
def execUreadRank (w : Who) (o : UOp) (s : State) : Out := s.live fun d => d.uniRead w o fun _ _ g => if thrIsLead w.thr then 0 else BitVec.ofNat 64 g.rank

/-- UREAD_TROUPE: the troupe index (R75). -/
def execUreadTroupe (w : Who) (o : UOp) (s : State) : Out := s.live fun d => d.uniRead w o fun _ r _ => BitVec.ofNat 64 r.troupe

/-- UREAD_TSIZE: G (R75). -/
def execUreadTsize (w : Who) (o : UOp) (s : State) : Out := s.live fun d => d.uniRead w o fun _ r _ => BitVec.ofNat 64 r.hdr.groups

/-- UREAD_NCORES: the cores of the unit (R75). -/
def execUreadNcores (w : Who) (o : UOp) (s : State) : Out := s.live fun d => d.uniRead w o fun _ r _ => BitVec.ofNat 64 r.cores.length

/-- UREAD_SEQ: the kernel sequence number (R75). -/
def execUreadSeq (w : Who) (o : UOp) (s : State) : Out := s.live fun d => d.uniRead w o fun _ r _ => r.seq

/-- QWIDTH: the width of presented array IMM20, or 0 (R75). -/
def execQwidth (w : Who) (o : UOp) (s : State) : Out := s.live fun d => d.uniRead w o fun c _ _ => BitVec.ofNat 64 ((c.arrayWidths[o.imm20.toNat]?).getD 0)

/-- QARRAYS: the presented array count (R75). -/
def execQarrays (w : Who) (o : UOp) (s : State) : Out := s.live fun d => d.uniRead w o fun c _ _ => BitVec.ofNat 64 c.arrayWidths.length

/-- UREAD_CYCLE: the partition's cycle counter (R327) (R75). -/
def execUreadCycle (w : Who) (o : UOp) (s : State) : Out := s.live fun d => d.uniRead w o fun _ r _ => d.cycleCounter r.part

/-- UREAD_ARG: argument word IMM20, 0 beyond them (R75). -/
def execUreadArg (w : Who) (o : UOp) (s : State) : Out := s.live fun d => d.uniRead w o fun _ r _ => (r.args[o.imm20.toNat]?).getD 0

end Sys2Proof.Machine
end

