-- ==== Sys2Proof/Machine/Upkeep.lean ====
section
/-! DEFINITION. The meanings of the commands by which Tempo, the memory controllers and the sensors act (08, 12, 15 R358). -/

namespace Sys2Proof.Machine

open Sys2Proof

/-- MEASURE_BOUNDARY (R301 to R305). -/
def execMeasureBoundary (n : Fin 13) (s : State) : Out := s.live (Dev.measure n.val)

/-- STACK_TEMPERATURE_READ (R207 to R209). -/
def execStackTemperatureRead (k : Fin 24) (temp : Byte) (s : State) : Out := s.live (Dev.stackTemp k.val temp.toNat)

/-- PATROL_SCRUB (R202). -/
def execPatrolScrub (line : BitVec 46) (f : Finding) (s : State) : Out := s.live (Dev.patrol line.toNat f)

/-- REMAP_COPY (R203, R204). -/
def execRemapCopy (k : Fin 24) (s : State) : Out := s.live (Dev.remapBeat k.val)

/-- SHADOW_COPY (R234). -/
def execShadowCopy (q : Fin 16384) (slot : W32) (granule : BitVec 36) (s : State) : Out :=
  s.live (Dev.shadowBeat q.val slot.toNat granule.toNat)

/-- CARVE_OUT_SCRUB (R294). -/
def execCarveOutScrub (n : Fin 13) (s : State) : Out := s.live (Dev.carveBeat n.val)

/-- SNOOP_FILTER_MAINTENANCE (R172). -/
def execSnoopFilterMaintenance (n : Fin 13) (suspect : Option (BitVec 46)) (s : State) : Out :=
  s.live (Dev.snoopBeat n.val (suspect.map BitVec.toNat))

/-- PROMENADE_CALIBRATION (R358): one beat; ring offset, modulator bias and receiver threshold follow the silicon, and no other state that
the spec names changes. Without a beat left it waits. -/
def execPromenadeCalibration (site : Fin 69) (s : State) : Out :=
  s.live fun d => (d.spend (calibrator site.val) actProm (beatLines (calibrator site.val))).getD d

/-- LPDDR_REFRESH_RATE_REPORT (R193). -/
def execLpddrRefreshRateReport (ch : Fin 16) (rate : BitVec 2) (s : State) : Out := s.live (Dev.lpRate ch.val rate.toNat)

/-- SNAPSHOT_SAMPLE (R308). -/
def execSnapshotSample (s : State) : Out := s.live Dev.snapSample

end Sys2Proof.Machine
end

