-- ==== Sys2Proof/Machine/Vector.lean ====
section
/-! DEFINITION. Vector instructions: majors 0x01 to 0x05 (03 R66 to R73). One meaning for each function, over the shared
forms below. -/

namespace Sys2Proof.Machine

open Sys2Proof

/-- A function of three operands and p[PD] on each thread of the effective mask (R66). -/
def Grp.vecApply (g : Grp) (o : VOp) (eff : Mask) (k : VTy → Bool → W64 → W64 → W64 → VRes) : Grp :=
  let ty := VTy.ofCode o.ty
  let p := g.predReg o.pd.toNat
  let res := (List.range 64).map fun t =>
    if eff.getLsbD t then
      k ty (p.getLsbD t) (g.operand ty.wide o.vs1.toNat t) (g.src2 ty o t) (g.operand ty.wide o.vs3.toNat t)
    else vExact 0
  (g.setOperand ty.wide o.vd.toNat eff (res.map (·.val))).countArith (res.map (·.sats)).sum

/-- An instruction of major 0x01 (R66). -/
def Dev.vecFn (d : Dev) (w : Who) (o : VOp) (sh : VShape) (k : VTy → Bool → W64 → W64 → W64 → VRes) : Dev :=
  d.vector w o (vopRegs sh true o) (fun r _ => sh.bad r.hdr.vregs true o) (VTy.ofCode o.ty = .f64) fun _ g eff => g.vecApply o eff k

/-- ADD: s1 + s2 (R66). -/
def execAdd (w : Who) (o : VOp) (s : State) : Out :=
  s.live fun d => d.vecFn w o { types := allTypes, s1 := true, s2 := true, s3 := false } fun ty _ a b _ => vAdd ty a b

/-- SUB: s1 - s2 (R66). -/
def execSub (w : Who) (o : VOp) (s : State) : Out :=
  s.live fun d => d.vecFn w o { types := allTypes, s1 := true, s2 := true, s3 := false } fun ty _ a b _ => vSub ty a b

/-- MUL: s1 * s2, low bits for integers (R66). -/
def execMul (w : Who) (o : VOp) (s : State) : Out :=
  s.live fun d => d.vecFn w o { types := allTypes, s1 := true, s2 := true, s3 := false } fun ty _ a b _ => vMul ty a b

/-- FMA: s1 * s2 + s3 with one rounding (R66). -/
def execFma (w : Who) (o : VOp) (s : State) : Out :=
  s.live fun d => d.vecFn w o { types := allTypes, s1 := true, s2 := true, s3 := true } fun ty _ a b c => vFma ty a b c

/-- MIN: the smaller of s1 and s2 (R66, R126). -/
def execMin (w : Who) (o : VOp) (s : State) : Out :=
  s.live fun d => d.vecFn w o { types := allTypes, s1 := true, s2 := true, s3 := false } fun ty _ a b _ => vMinMax ty false a b

/-- MAX: the larger of s1 and s2 (R66, R126). -/
def execMax (w : Who) (o : VOp) (s : State) : Out :=
  s.live fun d => d.vecFn w o { types := allTypes, s1 := true, s2 := true, s3 := false } fun ty _ a b _ => vMinMax ty true a b

/-- ABS: |s1| (R66, R125). -/
def execAbs (w : Who) (o : VOp) (s : State) : Out :=
  s.live fun d => d.vecFn w o { types := signedTypes, s1 := true, s2 := false, s3 := false } fun ty _ a _ _ => vAbs ty a

/-- NEG: -s1 (R66, R125). -/
def execNeg (w : Who) (o : VOp) (s : State) : Out :=
  s.live fun d => d.vecFn w o { types := signedTypes, s1 := true, s2 := false, s3 := false } fun ty _ a _ _ => vNeg ty a

/-- AND: s1 and s2 (R66). -/
def execAnd (w : Who) (o : VOp) (s : State) : Out :=
  s.live fun d => d.vecFn w o { types := intTypes, s1 := true, s2 := true, s3 := false } fun ty _ a b _ => vAnd ty a b

/-- OR: s1 or s2 (R66). -/
def execOr (w : Who) (o : VOp) (s : State) : Out :=
  s.live fun d => d.vecFn w o { types := intTypes, s1 := true, s2 := true, s3 := false } fun ty _ a b _ => vOr ty a b

/-- XOR: s1 xor s2 (R66). -/
def execXor (w : Who) (o : VOp) (s : State) : Out :=
  s.live fun d => d.vecFn w o { types := intTypes, s1 := true, s2 := true, s3 := false } fun ty _ a b _ => vXor ty a b

/-- NOT: not s1 (R66). -/
def execNot (w : Who) (o : VOp) (s : State) : Out :=
  s.live fun d => d.vecFn w o { types := intTypes, s1 := true, s2 := false, s3 := false } fun ty _ a _ _ => vNot ty a

/-- SHL: s1 shifted left (R66). -/
def execShl (w : Who) (o : VOp) (s : State) : Out :=
  s.live fun d => d.vecFn w o { types := intTypes, s1 := true, s2 := true, s3 := false } fun ty _ a b _ => vShl ty a b

/-- SHR: s1 shifted right (R66). -/
def execShr (w : Who) (o : VOp) (s : State) : Out :=
  s.live fun d => d.vecFn w o { types := intTypes, s1 := true, s2 := true, s3 := false } fun ty _ a b _ => vShr ty a b

/-- MULHI: the high half of the full product (R66). -/
def execMulhi (w : Who) (o : VOp) (s : State) : Out :=
  s.live fun d => d.vecFn w o { types := intTypes, s1 := true, s2 := true, s3 := false } fun ty _ a b _ => vMulhi ty a b

/-- DIV: s1 / s2 (R66, R67). -/
def execDiv (w : Who) (o : VOp) (s : State) : Out :=
  s.live fun d => d.vecFn w o { types := divTypes, s1 := true, s2 := true, s3 := false } fun ty _ a b _ => vDiv ty a b

/-- REM: the remainder (R66, R67). -/
def execRem (w : Who) (o : VOp) (s : State) : Out :=
  s.live fun d => d.vecFn w o { types := intTypes, s1 := true, s2 := true, s3 := false } fun ty _ a b _ => vRem ty a b

/-- SQRT: the square root of s1 (R66). -/
def execSqrt (w : Who) (o : VOp) (s : State) : Out :=
  s.live fun d => d.vecFn w o { types := floatTypes, s1 := true, s2 := false, s3 := false } fun ty _ a _ _ => vSqrt ty a

/-- RCP: 1 / s1 (R66). -/
def execRcp (w : Who) (o : VOp) (s : State) : Out :=
  s.live fun d => d.vecFn w o { types := [.f32], s1 := true, s2 := false, s3 := false } fun ty _ a _ _ => vRcp ty a

/-- RSQ: 1 / sqrt s1 (R66). -/
def execRsq (w : Who) (o : VOp) (s : State) : Out :=
  s.live fun d => d.vecFn w o { types := [.f32], s1 := true, s2 := false, s3 := false } fun ty _ a _ _ => vRsq ty a

/-- EXP2: 2 to the s1 (R66). -/
def execExp2 (w : Who) (o : VOp) (s : State) : Out :=
  s.live fun d => d.vecFn w o { types := [.f32], s1 := true, s2 := false, s3 := false } fun ty _ a _ _ => vExp2 ty a

/-- LOG2: log2 s1 (R66). -/
def execLog2 (w : Who) (o : VOp) (s : State) : Out :=
  s.live fun d => d.vecFn w o { types := [.f32], s1 := true, s2 := false, s3 := false } fun ty _ a _ _ => vLog2 ty a

/-- MOV: s2 (R66, R125). -/
def execMov (w : Who) (o : VOp) (s : State) : Out :=
  s.live fun d => d.vecFn w o { types := allTypes, s1 := false, s2 := true, s3 := false } fun _ _ _ b _ => vExact b

/-- SEL: p ? s1 : s2 (R66, R125). -/
def execSel (w : Who) (o : VOp) (s : State) : Out :=
  s.live fun d => d.vecFn w o { types := allTypes, s1 := true, s2 := true, s3 := false } fun _ p a b _ => vExact (if p then a else b)

/-- CLZ: leading zero bits of s1 (R66). -/
def execClz (w : Who) (o : VOp) (s : State) : Out :=
  s.live fun d => d.vecFn w o { types := [.i32, .u32], s1 := true, s2 := false, s3 := false } fun ty _ a _ _ => vClz ty a

/-- POPC: one bits of s1 (R66). -/
def execPopc (w : Who) (o : VOp) (s : State) : Out :=
  s.live fun d => d.vecFn w o { types := [.i32, .u32], s1 := true, s2 := false, s3 := false } fun ty _ a _ _ => vPopc ty a

/-- A compare of major 0x02 (R68): p[PD] in the threads of the effective mask. -/
def Dev.vecCmp (d : Dev) (w : Who) (o : VOp) (c : Cmp) : Dev :=
  let ty := VTy.ofCode o.ty
  let sh : VShape := { types := scalarTypes, s1 := true, s2 := true, s3 := false }
  d.vector w o (vopRegs sh false o) (fun r _ => sh.bad r.hdr.vregs false o) (ty = .f64) fun _ g eff =>
      g.setPred o.pd.toNat eff (maskOf fun t => c.holds ty (g.operand ty.wide o.vs1.toNat t) (g.src2 ty o t))

/-- EQ (R68). -/
def execEq (w : Who) (o : VOp) (s : State) : Out := s.live fun d => d.vecCmp w o .eq

/-- NE (R68). -/
def execNe (w : Who) (o : VOp) (s : State) : Out := s.live fun d => d.vecCmp w o .ne

/-- LT (R68). -/
def execLt (w : Who) (o : VOp) (s : State) : Out := s.live fun d => d.vecCmp w o .lt

/-- LE (R68). -/
def execLe (w : Who) (o : VOp) (s : State) : Out := s.live fun d => d.vecCmp w o .le

/-- GT (R68). -/
def execGt (w : Who) (o : VOp) (s : State) : Out := s.live fun d => d.vecCmp w o .gt

/-- GE (R68). -/
def execGe (w : Who) (o : VOp) (s : State) : Out := s.live fun d => d.vecCmp w o .ge

/-- A predicate combination of major 0x02 (R68): from p[VS1] and p[VS2] in the threads of the effective mask. -/
def Dev.predFn (d : Dev) (w : Who) (o : VOp) (k : Mask → Mask → Mask) : Dev :=
  d.vector w o [] (fun _ _ => false) false fun _ g eff =>
    g.setPred o.pd.toNat eff (k (g.predReg (o.vs1.toNat % 8)) (g.predReg (o.vs2.toNat % 8)))

/-- PAND (R68). -/
def execPand (w : Who) (o : VOp) (s : State) : Out := s.live fun d => d.predFn w o fun a b => a &&& b

/-- POR (R68). -/
def execPor (w : Who) (o : VOp) (s : State) : Out := s.live fun d => d.predFn w o fun a b => a ||| b

/-- PXOR (R68). -/
def execPxor (w : Who) (o : VOp) (s : State) : Out := s.live fun d => d.predFn w o fun a b => a ^^^ b

/-- PNOT (R68). -/
def execPnot (w : Who) (o : VOp) (s : State) : Out := s.live fun d => d.predFn w o fun a _ => ~~~a

/-- The lowest bit of the element a VCVT select names in its register: the half, the byte, or 0 (R69). -/
def cvtShift (c sel : Nat) : Nat := if cvtWidth c = 16 then 16 * sel else if cvtWidth c = 8 then 8 * sel else 0

/-- The select and register rules of one side of VCVT (R61, R69). -/
def cvtSideBad (v c sel r : Nat) : Bool :=
  c > 8 || (cvtWidth c = 16 && sel ≥ 2) || (cvtWidth c ≥ 32 && sel ≠ 0) || regBad v (cvtWidth c = 64) r

/-- The registers a VCVT names. -/
def cvtRegs (o : CvtOp) : List Nat :=
  (if cvtWidth o.dfmt.toNat = 64 then [o.vd.toNat, o.vd.toNat + 1] else [o.vd.toNat])
    ++ (if cvtWidth o.sfmt.toNat = 64 then [o.vs1.toNat, o.vs1.toNat + 1] else [o.vs1.toNat])

/-- A VCVT format that walk-through does not offer (R91): FP64 and FP8. -/
def cvtUnavailable (c : Nat) : Bool := c = 1 || c = 4 || c = 5

/-- VCVT: one element converted, the rest of a narrow destination's register kept (R69, R130). -/
def execVcvt (w : Who) (o : CvtOp) (s : State) : Out :=
  s.live fun d => d.issue w false (cvtRegs o)
    (fun _ r _ => cvtSideBad r.hdr.vregs o.sfmt.toNat o.ssel.toNat o.vs1.toNat
      || cvtSideBad r.hdr.vregs o.dfmt.toNat o.dsel.toNat o.vd.toNat) fun c r g =>
    let eff := g.eff o.pr
    if eff != 0 && r.walk && (cvtUnavailable o.sfmt.toNat || cvtUnavailable o.dfmt.toNat) then
      d.instError w c r g errFormat
    else
      let sw := cvtWidth o.sfmt.toNat
      let dw := cvtWidth o.dfmt.toNat
      let res := (List.range 64).map fun t =>
        if eff.getLsbD t then
          cvtElem o.sfmt.toNat o.dfmt.toNat
            (natBitsAt (g.operand (sw = 64) o.vs1.toNat t).toNat (cvtShift o.sfmt.toNat o.ssel.toNat) sw)
        else fpNoSat 0
      let vals := (List.range 64).map fun t =>
        BitVec.ofNat 64 (natSetBits (g.operand (dw = 64) o.vd.toNat t).toNat (cvtShift o.dfmt.toNat o.dsel.toNat) dw
          ((res.getD t (fpNoSat 0)).bits))
      d.putThr w c r ((g.setOperand (dw = 64) o.vd.toNat eff vals).countArith (res.countP (·.sat))).step

/-- An exchange function of major 0x04 (R70): thread t takes s1 of the thread that k names from t and s2(t). -/
def Dev.exchange (d : Dev) (w : Who) (o : VOp) (k : Nat → Nat → Nat) : Dev :=
  let ty := VTy.ofCode o.ty
  let sh : VShape := { types := allTypes, s1 := true, s2 := true, s3 := false }
  d.vector w o (vopRegs sh true o) (fun r _ => sh.bad r.hdr.vregs true o) (ty = .f64) fun _ g eff =>
      g.setOperand ty.wide o.vd.toNat eff ((List.range 64).map fun t =>
        g.operand ty.wide o.vs1.toNat (k t ((g.src2 ty o t).toNat % 2 ^ 32)))

/-- XCH.PICK (R70). -/
def execXchPick (w : Who) (o : VOp) (s : State) : Out := s.live fun d => d.exchange w o fun _ x => x % 64

/-- XCH.MIRROR (R70). -/
def execXchMirror (w : Who) (o : VOp) (s : State) : Out := s.live fun d => d.exchange w o fun t x => Nat.xor t (x % 64)

/-- XCH.ROT (R70). -/
def execXchRot (w : Who) (o : VOp) (s : State) : Out := s.live fun d => d.exchange w o fun t x => (t + x) % 64

/-- XCH.SEGHEAD (R70). -/
def execXchSeghead (w : Who) (o : VOp) (s : State) : Out :=
  s.live fun d => d.exchange w o fun t x => t - t % 2 ^ min (x % 8) 6

/-- A group reduction of major 0x04 (R70, R125, R130): the fixed tree over the threads of the effective mask; a NaN result is canonical, that
of a lone thread too (log 113). -/
def Dev.reduce (d : Dev) (w : Who) (o : VOp) (op : VTy → W64 → W64 → VRes) : Dev :=
  let ty := VTy.ofCode o.ty
  let sh : VShape := { types := scalarTypes, s1 := true, s2 := false, s3 := false }
  d.vector w o (vopRegs sh true o) (fun r _ => sh.bad r.hdr.vregs true o) (ty = .f64) fun _ g eff =>
      let level := (List.range 64).map fun t => if eff.getLsbD t then some (g.operand ty.wide o.vs1.toNat t) else none
      let r := redTree (op ty) 6 level 0
      (g.setOperand ty.wide o.vd.toNat eff (List.replicate 64 (vCanon ty (r.1.getD 0)))).countArith r.2

/-- RED.ADD (R70). -/
def execRedAdd (w : Who) (o : VOp) (s : State) : Out := s.live fun d => d.reduce w o vAdd

/-- RED.MIN (R70, R126). -/
def execRedMin (w : Who) (o : VOp) (s : State) : Out := s.live fun d => d.reduce w o fun ty => vMinMax ty false

/-- RED.MAX (R70, R126). -/
def execRedMax (w : Who) (o : VOp) (s : State) : Out := s.live fun d => d.reduce w o fun ty => vMinMax ty true

/-- TID (R71): the thread index as a U32. -/
def execTid (w : Who) (o : VOp) (s : State) : Out :=
  s.live fun d => d.vector w o [o.vd.toNat] (fun r _ => regBad r.hdr.vregs false o.vd.toNat) false fun _ g eff =>
    g.setVreg o.vd.toNat eff fun t => BitVec.ofNat 32 t

/-- RNG.DRAW (R71, R137): the thread's Shuffle value; the group's draw counter advances whatever the effective mask,
but for the never-executing form. -/
def execRngDraw (w : Who) (o : VOp) (s : State) : Out :=
  s.live fun d => d.vector w o [o.vd.toNat, o.vd.toNat + 1] (fun r _ => regBad r.hdr.vregs true o.vd.toNat) false fun _ g eff =>
    let g' := g.setOperand true o.vd.toNat eff ((List.range 64).map fun t => shuffleOut g.key t g.draws)
    if predNever o.pr then g else { g' with draws := g.draws + 1 }

/-- The decode checks of ONLMAX and RESCL (R72): F32 only. -/
def onlineShape : VShape := { types := [.f32], s1 := true, s2 := true, s3 := false }
def onlineBad (r : Run) (o : VOp) : Bool := onlineShape.bad r.hdr.vregs true o

/-- ONLMAX (R72, R135): the factor to VD, the new maximum back to VS1. -/
def execOnlmax (w : Who) (o : VOp) (s : State) : Out :=
  s.live fun d => d.vector w o (vopRegs onlineShape true o) (fun r _ => onlineBad r o) false fun _ g eff =>
    let res := (List.range 64).map fun t =>
      if eff.getLsbD t then onlmaxVal (g.vreg o.vs1.toNat t).toNat ((g.src2 .f32 o t).toNat % 2 ^ 32) else (0, 0)
    (g.setVreg o.vd.toNat eff fun t => BitVec.ofNat 32 (res.getD t (0, 0)).1).setVreg o.vs1.toNat eff
      fun t => BitVec.ofNat 32 (res.getD t (0, 0)).2

/-- RESCL (R72, R135): s * f + t with one rounding. -/
def execRescl (w : Who) (o : VOp) (s : State) : Out :=
  s.live fun d => d.vector w o (vopRegs onlineShape true o) (fun r _ => onlineBad r o) false fun _ g eff =>
    let res := (List.range 64).map fun t =>
      if eff.getLsbD t then
        fpFma fpF32 (g.vreg o.vd.toNat t).toNat (g.vreg o.vs1.toNat t).toNat ((g.src2 .f32 o t).toNat % 2 ^ 32)
      else fpNoSat 0
    (g.setVreg o.vd.toNat eff fun t => BitVec.ofNat 32 (res.getD t (fpNoSat 0)).bits).countArith (res.countP (·.sat))

/-- MOM of a WUPD (R73). -/
def wupdMom (o : VOp) : Bool := o.aux.getLsbD 6

/-- The decode checks of WUPD (R61, R73): TYPE F32 or BF16X2, S2K 1, register bounds, even pairs for BF16X2. With MOM 0 the
M field is unused (R134). -/
def wupdBad (v : Nat) (o : VOp) : Bool :=
  let ty := VTy.ofCode o.ty
  let two := ty = .bf16x2
  !(ty = .f32 || two) || o.s2k ≠ 1 || regBad v false o.vd.toNat || regBad v two o.vs1.toNat
    || (wupdMom o && regBad v two o.vs3.toNat)

/-- The registers a WUPD names: its weights, gradients and, with MOM, momenta, the last two in pairs for BF16X2. -/
def wupdRegs (o : VOp) : List Nat :=
  let pair (x : Byte) : List Nat := if VTy.ofCode o.ty = .bf16x2 then [x.toNat, x.toNat + 1] else [x.toNat]
  [o.vd.toNat] ++ pair o.vs1 ++ (if wupdMom o then pair o.vs3 else [])

/-- The fields a WUPD.SRk needs, taking a fresh draw when the width differs or too few are left (R133). Answers the group
with its position advanced and the position it reads at. -/
def Grp.takeFields (g : Grp) (k n : Nat) : Grp × Nat :=
  if k = 0 then (g, 0)
  else if g.fieldWidth ≠ k || (if k = 4 then 16 else 21) < g.fieldPos + n then
    ({ g with drawBuf := (List.range 64).map fun t => shuffleOut g.key t g.draws
              draws := g.draws + 1, fieldWidth := k, fieldPos := n }, 0)
  else ({ g with fieldPos := g.fieldPos + n }, g.fieldPos)

/-- Field i of thread t's draw buffer (R133). -/
def Grp.field (g : Grp) (k t i : Nat) : Nat := natBitsAt ((g.drawBuf.getD t 0).toNat) (k * i) k

/-- The updates of thread t (R73): one weight, or the low half then the high half. -/
def Grp.wupdThread (g : Grp) (o : VOp) (k pos t : Nat) : List WUpd :=
  let coeff := g.ureg (o.vs2.toNat % 64)
  let w := (g.vreg o.vd.toNat t).toNat
  let gr (h : Nat) := (g.vreg (o.vs1.toNat + h) t).toNat
  let mo (h : Nat) := (g.vreg (o.vs3.toNat + h) t).toNat
  if VTy.ofCode o.ty = .bf16x2 then
    [wupdElem fpBf16 k (g.field k t pos) (wupdMom o) coeff (w % 2 ^ 16) (gr 0) (mo 0),
     wupdElem fpBf16 k (g.field k t (pos + 1)) (wupdMom o) coeff (w / 2 ^ 16) (gr 1) (mo 1)]
  else [wupdElem fpF32 k (g.field k t pos) (wupdMom o) coeff w (gr 0) (mo 0)]

/-- The weight register's word from a thread's updates. -/
def wupdWord : List WUpd → Nat
  | [a] => a.weight
  | a :: b :: _ => a.weight + 2 ^ 16 * b.weight
  | [] => 0

/-- A WUPD with field width k, 0 for nearest-even (R73, R132 to R134): weights, momentum, monitor slot and counts. -/
def Grp.wupd (g : Grp) (o : VOp) (k : Nat) (eff : Mask) : Grp :=
  if predNever o.pr then g
  else
    let two := VTy.ofCode o.ty = .bf16x2
    let f := g.takeFields k (if two then 2 else 1)
    let g := f.1
    let res := (List.range 64).map fun t => if eff.getLsbD t then g.wupdThread o k f.2 t else []
    let g1 := g.setVreg o.vd.toNat eff fun t => BitVec.ofNat 32 (wupdWord (res.getD t []))
    let mo (h : Nat) (t : Nat) : W32 := BitVec.ofNat 32 (((res.getD t [])[h]?.map (·.momentum)).getD 0)
    let g2 := if wupdMom o then g1.setVreg o.vs3.toNat eff (mo 0) else g1
    let g3 := if wupdMom o && two then g2.setVreg (o.vs3.toNat + 1) eff (mo 1) else g2
    let layer := o.aux.toNat % 64
    let slot := res.flatten.foldl (fun m x => m.count x.u x.w x.sats x.nonfinite) (smapGet g3.monitor layer MonSlot.zero)
    let g4 := if eff = 0 then g3 else { g3 with monitor := smapPut g3.monitor layer slot }
    g4.countArith (res.flatten.map (·.sats)).sum

/-- WUPD.SR3 (R73, R132). -/
def execWupdSr3 (w : Who) (o : VOp) (s : State) : Out :=
  s.live fun d => d.vector w o (wupdRegs o) (fun r _ => wupdBad r.hdr.vregs o) false fun _ g eff => g.wupd o 3 eff

/-- WUPD.SR4 (R73, R132). -/
def execWupdSr4 (w : Who) (o : VOp) (s : State) : Out :=
  s.live fun d => d.vector w o (wupdRegs o) (fun r _ => wupdBad r.hdr.vregs o) false fun _ g eff => g.wupd o 4 eff

/-- WUPD.RN (R73, R132): no random bits. -/
def execWupdRn (w : Who) (o : VOp) (s : State) : Out :=
  s.live fun d => d.vector w o (wupdRegs o) (fun r _ => wupdBad r.hdr.vregs o) false fun _ g eff => g.wupd o 0 eff

end Sys2Proof.Machine
end

