-- ==== Sys2Proof/Machine/Dispatch.lean ====
section
/-! DEFINITION. The meaning of every command: one arm for each constructor of `Instr`. -/

namespace Sys2Proof.Machine

open Sys2Proof

def exec (i : Instr) (s : State) : Host.Outcome State Fault Refusal :=
  match i with
  | .add w o => Sys2Proof.Machine.execAdd w o s
  | .sub w o => Sys2Proof.Machine.execSub w o s
  | .mul w o => Sys2Proof.Machine.execMul w o s
  | .fma w o => Sys2Proof.Machine.execFma w o s
  | .min w o => Sys2Proof.Machine.execMin w o s
  | .max w o => Sys2Proof.Machine.execMax w o s
  | .abs w o => Sys2Proof.Machine.execAbs w o s
  | .neg w o => Sys2Proof.Machine.execNeg w o s
  | .and w o => Sys2Proof.Machine.execAnd w o s
  | .or w o => Sys2Proof.Machine.execOr w o s
  | .xor w o => Sys2Proof.Machine.execXor w o s
  | .not w o => Sys2Proof.Machine.execNot w o s
  | .shl w o => Sys2Proof.Machine.execShl w o s
  | .shr w o => Sys2Proof.Machine.execShr w o s
  | .mulhi w o => Sys2Proof.Machine.execMulhi w o s
  | .div w o => Sys2Proof.Machine.execDiv w o s
  | .rem w o => Sys2Proof.Machine.execRem w o s
  | .sqrt w o => Sys2Proof.Machine.execSqrt w o s
  | .rcp w o => Sys2Proof.Machine.execRcp w o s
  | .rsq w o => Sys2Proof.Machine.execRsq w o s
  | .exp2 w o => Sys2Proof.Machine.execExp2 w o s
  | .log2 w o => Sys2Proof.Machine.execLog2 w o s
  | .mov w o => Sys2Proof.Machine.execMov w o s
  | .sel w o => Sys2Proof.Machine.execSel w o s
  | .clz w o => Sys2Proof.Machine.execClz w o s
  | .popc w o => Sys2Proof.Machine.execPopc w o s
  | .eq w o => Sys2Proof.Machine.execEq w o s
  | .ne w o => Sys2Proof.Machine.execNe w o s
  | .lt w o => Sys2Proof.Machine.execLt w o s
  | .le w o => Sys2Proof.Machine.execLe w o s
  | .gt w o => Sys2Proof.Machine.execGt w o s
  | .ge w o => Sys2Proof.Machine.execGe w o s
  | .pand w o => Sys2Proof.Machine.execPand w o s
  | .por w o => Sys2Proof.Machine.execPor w o s
  | .pxor w o => Sys2Proof.Machine.execPxor w o s
  | .pnot w o => Sys2Proof.Machine.execPnot w o s
  | .vcvt w o => Sys2Proof.Machine.execVcvt w o s
  | .xchPick w o => Sys2Proof.Machine.execXchPick w o s
  | .xchMirror w o => Sys2Proof.Machine.execXchMirror w o s
  | .xchRot w o => Sys2Proof.Machine.execXchRot w o s
  | .xchSeghead w o => Sys2Proof.Machine.execXchSeghead w o s
  | .redAdd w o => Sys2Proof.Machine.execRedAdd w o s
  | .redMin w o => Sys2Proof.Machine.execRedMin w o s
  | .redMax w o => Sys2Proof.Machine.execRedMax w o s
  | .tid w o => Sys2Proof.Machine.execTid w o s
  | .rngDraw w o => Sys2Proof.Machine.execRngDraw w o s
  | .onlmax w o => Sys2Proof.Machine.execOnlmax w o s
  | .rescl w o => Sys2Proof.Machine.execRescl w o s
  | .wupdSr3 w o => Sys2Proof.Machine.execWupdSr3 w o s
  | .wupdSr4 w o => Sys2Proof.Machine.execWupdSr4 w o s
  | .wupdRn w o => Sys2Proof.Machine.execWupdRn w o s
  | .uniAdd w o => Sys2Proof.Machine.execUniAdd w o s
  | .uniSub w o => Sys2Proof.Machine.execUniSub w o s
  | .uniMul w o => Sys2Proof.Machine.execUniMul w o s
  | .uniMulhu w o => Sys2Proof.Machine.execUniMulhu w o s
  | .uniAnd w o => Sys2Proof.Machine.execUniAnd w o s
  | .uniOr w o => Sys2Proof.Machine.execUniOr w o s
  | .uniXor w o => Sys2Proof.Machine.execUniXor w o s
  | .uniShl w o => Sys2Proof.Machine.execUniShl w o s
  | .uniShr w o => Sys2Proof.Machine.execUniShr w o s
  | .uniSar w o => Sys2Proof.Machine.execUniSar w o s
  | .uniMin w o => Sys2Proof.Machine.execUniMin w o s
  | .uniMax w o => Sys2Proof.Machine.execUniMax w o s
  | .uniUmin w o => Sys2Proof.Machine.execUniUmin w o s
  | .uniUmax w o => Sys2Proof.Machine.execUniUmax w o s
  | .uniMov w o => Sys2Proof.Machine.execUniMov w o s
  | .umoviLo w o => Sys2Proof.Machine.execUmoviLo w o s
  | .umoviHi w o => Sys2Proof.Machine.execUmoviHi w o s
  | .ucmpEq w o => Sys2Proof.Machine.execUcmpEq w o s
  | .ucmpNe w o => Sys2Proof.Machine.execUcmpNe w o s
  | .ucmpLt w o => Sys2Proof.Machine.execUcmpLt w o s
  | .ucmpLe w o => Sys2Proof.Machine.execUcmpLe w o s
  | .ucmpUlt w o => Sys2Proof.Machine.execUcmpUlt w o s
  | .ucmpUle w o => Sys2Proof.Machine.execUcmpUle w o s
  | .ureadGidx w o => Sys2Proof.Machine.execUreadGidx w o s
  | .ureadRank w o => Sys2Proof.Machine.execUreadRank w o s
  | .ureadTroupe w o => Sys2Proof.Machine.execUreadTroupe w o s
  | .ureadTsize w o => Sys2Proof.Machine.execUreadTsize w o s
  | .ureadNcores w o => Sys2Proof.Machine.execUreadNcores w o s
  | .ureadSeq w o => Sys2Proof.Machine.execUreadSeq w o s
  | .qwidth w o => Sys2Proof.Machine.execQwidth w o s
  | .qarrays w o => Sys2Proof.Machine.execQarrays w o s
  | .ureadCycle w o => Sys2Proof.Machine.execUreadCycle w o s
  | .ureadArg w o => Sys2Proof.Machine.execUreadArg w o s
  | .mma w o => Sys2Proof.Machine.execMma w o s
  | .wload w o => Sys2Proof.Machine.execWload w o s
  | .mdrain w o => Sys2Proof.Machine.execMdrain w o s
  | .weightRowsWritten core array => Sys2Proof.Machine.execWeightRowsWritten core array s
  | .mmaProductsInChain core array => Sys2Proof.Machine.execMmaProductsInChain core array s
  | .drainComplete core array bank => Sys2Proof.Machine.execDrainComplete core array bank s
  | .arrayHandover core array => Sys2Proof.Machine.execArrayHandover core array s
  | .ld w o => Sys2Proof.Machine.execLd w o s
  | .ldV w o => Sys2Proof.Machine.execLdV w o s
  | .ldAcq w o => Sys2Proof.Machine.execLdAcq w o s
  | .st w o => Sys2Proof.Machine.execSt w o s
  | .stRel w o => Sys2Proof.Machine.execStRel w o s
  | .atomAdd w o => Sys2Proof.Machine.execAtomAdd w o s
  | .atomFadd w o => Sys2Proof.Machine.execAtomFadd w o s
  | .atomAnd w o => Sys2Proof.Machine.execAtomAnd w o s
  | .atomOr w o => Sys2Proof.Machine.execAtomOr w o s
  | .atomXor w o => Sys2Proof.Machine.execAtomXor w o s
  | .atomSmin w o => Sys2Proof.Machine.execAtomSmin w o s
  | .atomSmax w o => Sys2Proof.Machine.execAtomSmax w o s
  | .atomUmin w o => Sys2Proof.Machine.execAtomUmin w o s
  | .atomUmax w o => Sys2Proof.Machine.execAtomUmax w o s
  | .atomExch w o => Sys2Proof.Machine.execAtomExch w o s
  | .atomCas w o => Sys2Proof.Machine.execAtomCas w o s
  | .lds w o => Sys2Proof.Machine.execLds w o s
  | .sts w o => Sys2Proof.Machine.execSts w o s
  | .atoms w o => Sys2Proof.Machine.execAtoms w o s
  | .fenceAcq w o => Sys2Proof.Machine.execFenceAcq w o s
  | .fenceRel w o => Sys2Proof.Machine.execFenceRel w o s
  | .fenceAr w o => Sys2Proof.Machine.execFenceAr w o s
  | .zline w o => Sys2Proof.Machine.execZline w o s
  | .zlineS w o => Sys2Proof.Machine.execZlineS w o s
  | .invNearL w o => Sys2Proof.Machine.execInvNearL w o s
  | .wbNearL w o => Sys2Proof.Machine.execWbNearL w o s
  | .invNear w o => Sys2Proof.Machine.execInvNear w o s
  | .wbNear w o => Sys2Proof.Machine.execWbNear w o s
  | .pfNear w o => Sys2Proof.Machine.execPfNear w o s
  | .pfS w o => Sys2Proof.Machine.execPfS w o s
  | .nop w o => Sys2Proof.Machine.execNop w o s
  | .braAny w o => Sys2Proof.Machine.execBraAny w o s
  | .braAll w o => Sys2Proof.Machine.execBraAll w o s
  | .split w o => Sys2Proof.Machine.execSplit w o s
  | .join w o => Sys2Proof.Machine.execJoin w o s
  | .call w o => Sys2Proof.Machine.execCall w o s
  | .ret w o => Sys2Proof.Machine.execRet w o s
  | .brx w o => Sys2Proof.Machine.execBrx w o s
  | .exit w o => Sys2Proof.Machine.execExit w o s
  | .barUnit w o => Sys2Proof.Machine.execBarUnit w o s
  | .barrierRelease core barrier => Sys2Proof.Machine.execBarrierRelease core barrier s
  | .rfill w o => Sys2Proof.Machine.execRfill w o s
  | .ringFillComplete core ring fill => Sys2Proof.Machine.execRingFillComplete core ring fill s
  | .waitring w o => Sys2Proof.Machine.execWaitring w o s
  | .waitringRel w o => Sys2Proof.Machine.execWaitringRel w o s
  | .nsplit w o => Sys2Proof.Machine.execNsplit w o s
  | .statfStatistics w o => Sys2Proof.Machine.execStatfStatistics w o s
  | .statfMonitor w o => Sys2Proof.Machine.execStatfMonitor w o s
  | .groupWake core group => Sys2Proof.Machine.execGroupWake core group s
  | .issueSlotTake core => Sys2Proof.Machine.execIssueSlotTake core s
  | .troupeStart core => Sys2Proof.Machine.execTroupeStart core s
  | .laneResidueFail core lane => Sys2Proof.Machine.execLaneResidueFail core lane s
  | .columnResidueFail core array what => Sys2Proof.Machine.execColumnResidueFail core array what s
  | .rdShared a line => Sys2Proof.Machine.execRdShared a line s
  | .rdOwn a line => Sys2Proof.Machine.execRdOwn a line s
  | .claimOwn a line => Sys2Proof.Machine.execClaimOwn a line s
  | .evict a line => Sys2Proof.Machine.execEvict a line s
  | .writeBack a line => Sys2Proof.Machine.execWriteBack a line s
  | .snpShared a line => Sys2Proof.Machine.execSnpShared a line s
  | .snpInv a line => Sys2Proof.Machine.execSnpInv a line s
  | .snpResp a line => Sys2Proof.Machine.execSnpResp a line s
  | .data dst => Sys2Proof.Machine.execData dst s
  | .dataRedirect who line => Sys2Proof.Machine.execDataRedirect who line s
  | .strRd rq line found => Sys2Proof.Machine.execStrRd rq line found s
  | .strWr rq line mask bytes => Sys2Proof.Machine.execStrWr rq line mask bytes s
  | .strAtom rq line off aop wide v c => Sys2Proof.Machine.execStrAtom rq line off aop wide v c s
  | .agentLocalRead a line => Sys2Proof.Machine.execAgentLocalRead a line s
  | .agentLocalWrite a line mask bytes => Sys2Proof.Machine.execAgentLocalWrite a line mask bytes s
  | .agentReplacement a line => Sys2Proof.Machine.execAgentReplacement a line s
  | .ownershipHoldExpiry a line => Sys2Proof.Machine.execOwnershipHoldExpiry a line s
  | .retry t x => Sys2Proof.Machine.execRetry t x s
  | .nack home x => Sys2Proof.Machine.execNack home x s
  | .nackBackoffExpiry home who => Sys2Proof.Machine.execNackBackoffExpiry home who s
  | .reservationTimeout home who => Sys2Proof.Machine.execReservationTimeout home who s
  | .homeTimeout home line => Sys2Proof.Machine.execHomeTimeout home line s
  | .agentDeadNotice home a => Sys2Proof.Machine.execAgentDeadNotice home a s
  | .shcHomeCtlWrite home v => Sys2Proof.Machine.execShcHomeCtlWrite home v s
  | .measureBoundary n => Sys2Proof.Machine.execMeasureBoundary n s
  | .stackTemperatureRead k temp => Sys2Proof.Machine.execStackTemperatureRead k temp s
  | .patrolScrub line found => Sys2Proof.Machine.execPatrolScrub line found s
  | .remapCopy k => Sys2Proof.Machine.execRemapCopy k s
  | .shadowCopy q slot granule => Sys2Proof.Machine.execShadowCopy q slot granule s
  | .carveOutScrub n => Sys2Proof.Machine.execCarveOutScrub n s
  | .snoopFilterMaintenance n suspect => Sys2Proof.Machine.execSnoopFilterMaintenance n suspect s
  | .promenadeCalibration site => Sys2Proof.Machine.execPromenadeCalibration site s
  | .walkComplete tile ctx page => Sys2Proof.Machine.execWalkComplete tile ctx page s
  | .faultEntryFreed p => Sys2Proof.Machine.execFaultEntryFreed p s
  | .xltFqResolveRetry p record => Sys2Proof.Machine.execXltFqResolveRetry p record s
  | .xltFqResolveFail p record => Sys2Proof.Machine.execXltFqResolveFail p record s
  | .xltFqConsWrite p cons => Sys2Proof.Machine.execXltFqConsWrite p cons s
  | .xltWinInval window => Sys2Proof.Machine.execXltWinInval window s
  | .windowInvalDrained => Sys2Proof.Machine.execWindowInvalDrained s
  | .remoteWindowAccess src window off key op id => Sys2Proof.Machine.execRemoteWindowAccess src window off key op id s
  | .remoteAccessAck id => Sys2Proof.Machine.execRemoteAccessAck id s
  | .kernel q slot => Sys2Proof.Machine.execKernel q slot s
  | .copy q slot => Sys2Proof.Machine.execCopy q slot s
  | .fill q slot => Sys2Proof.Machine.execFill q slot s
  | .collective q slot => Sys2Proof.Machine.execCollective q slot s
  | .wait q slot => Sys2Proof.Machine.execWait q slot s
  | .signal q slot => Sys2Proof.Machine.execSignal q slot s
  | .rangeSync q slot => Sys2Proof.Machine.execRangeSync q slot s
  | .marker q slot => Sys2Proof.Machine.execMarker q slot s
  | .create p q => Sys2Proof.Machine.execCreate p q s
  | .destroy p q => Sys2Proof.Machine.execDestroy p q s
  | .abort p q slot => Sys2Proof.Machine.execAbort p q slot s
  | .clrDbTailWrite src q tail => Sys2Proof.Machine.execClrDbTailWrite src q tail s
  | .resume src q => Sys2Proof.Machine.execResume src q s
  | .slotRead q => Sys2Proof.Machine.execSlotRead q s
  | .commandDispatch q slot => Sys2Proof.Machine.execCommandDispatch q slot s
  | .engineGrant q slot => Sys2Proof.Machine.execEngineGrant q slot s
  | .preemptionKill q slot => Sys2Proof.Machine.execPreemptionKill q slot s
  | .sliceExpiry q slot => Sys2Proof.Machine.execSliceExpiry q slot s
  | .execTimeoutExpiry q slot => Sys2Proof.Machine.execExecTimeoutExpiry q slot s
  | .drainAckTimeout q slot engine => Sys2Proof.Machine.execDrainAckTimeout q slot engine s
  | .killAckTimeout q slot engine => Sys2Proof.Machine.execKillAckTimeout q slot engine s
  | .engineAck q slot engine => Sys2Proof.Machine.execEngineAck q slot engine s
  | .waitTimeoutExpiry q slot => Sys2Proof.Machine.execWaitTimeoutExpiry q slot s
  | .workFinished q slot => Sys2Proof.Machine.execWorkFinished q slot s
  | .commitRequest q slot => Sys2Proof.Machine.execCommitRequest q slot s
  | .killAtArbiter q slot => Sys2Proof.Machine.execKillAtArbiter q slot s
  | .fenceSignal p => Sys2Proof.Machine.execFenceSignal p s
  | .fenceErrorStore p => Sys2Proof.Machine.execFenceErrorStore p s
  | .waitRelease q slot => Sys2Proof.Machine.execWaitRelease q slot s
  | .fenceReread q slot => Sys2Proof.Machine.execFenceReread q slot s
  | .clrFencePost p ctx code => Sys2Proof.Machine.execClrFencePost p ctx code s
  | .clrQRangeWrite p contexts v => Sys2Proof.Machine.execClrQRangeWrite p contexts v s
  | .activatePartition p => Sys2Proof.Machine.execActivatePartition p s
  | .dissolve p => Sys2Proof.Machine.execDissolve p s
  | .reinitialise p => Sys2Proof.Machine.execReinitialise p s
  | .reinitOverrun p => Sys2Proof.Machine.execReinitOverrun p s
  | .hbmReplPairWrite j v => Sys2Proof.Machine.execHbmReplPairWrite j v s
  | .hbmFwMapWrite block v => Sys2Proof.Machine.execHbmFwMapWrite block v s
  | .snapshotGo v => Sys2Proof.Machine.execSnapshotGo v s
  | .snapshotSample => Sys2Proof.Machine.execSnapshotSample s
  | .attestGo p => Sys2Proof.Machine.execAttestGo p s
  | .fzctxWrite h mode x => Sys2Proof.Machine.execFzctxWrite h mode x s
  | .hostForbiddenAccess h addr write aligned64 => Sys2Proof.Machine.execHostForbiddenAccess h addr write aligned64 s
  | .prtIntWrite p fence v => Sys2Proof.Machine.execPrtIntWrite p fence v s
  | .ulkFlit seq ack crcOk corrected => Sys2Proof.Machine.execUlkFlit seq ack crcOk corrected s
  | .ulkReplayLimit => Sys2Proof.Machine.execUlkReplayLimit s
  | .ulkLockLoss => Sys2Proof.Machine.execUlkLockLoss s
  | .retrain v => Sys2Proof.Machine.execRetrain v s
  | .ulkAllowanceDeclaration setsLog2 ways half upper => Sys2Proof.Machine.execUlkAllowanceDeclaration setsLog2 ways half upper s
  | .configRead addr => Sys2Proof.Machine.execConfigRead addr s
  | .configWrite addr v => Sys2Proof.Machine.execConfigWrite addr v s
  | .timeMark markId compTime => Sys2Proof.Machine.execTimeMark markId compTime s
  | .xwConfigWrite flags v => Sys2Proof.Machine.execXwConfigWrite flags v s
  | .reelWavelengthLoss port wl => Sys2Proof.Machine.execReelWavelengthLoss port wl s
  | .remoteFenceSignal src window off key msg id => Sys2Proof.Machine.execRemoteFenceSignal src window off key msg id s
  | .remoteSignalRetry id => Sys2Proof.Machine.execRemoteSignalRetry id s
  | .collectiveSegment bridge m => Sys2Proof.Machine.execCollectiveSegment bridge m s
  | .orderedCombine q slot => Sys2Proof.Machine.execOrderedCombine q slot s
  | .chasseRetrain e dir cause => Sys2Proof.Machine.execChasseRetrain e dir cause s
  | .chasseRetrainComplete e failedAb failedBa => Sys2Proof.Machine.execChasseRetrainComplete e failedAb failedBa s
  | .laserLoss bank laser => Sys2Proof.Machine.execLaserLoss bank laser s
  | .promenadeScheduleChange => Sys2Proof.Machine.execPromenadeScheduleChange s
  | .pllLockLoss site => Sys2Proof.Machine.execPllLockLoss site s
  | .refLoss => Sys2Proof.Machine.execRefLoss s
  | .refHoldoverExpiry => Sys2Proof.Machine.execRefHoldoverExpiry s
  | .powerReset => Sys2Proof.Machine.execPowerReset s
  | .moduleReset => Sys2Proof.Machine.execModuleReset s
  | .isolateReset site => Sys2Proof.Machine.execIsolateReset site s
  | .resetRelease b => Sys2Proof.Machine.execResetRelease b s
  | .idcode => Sys2Proof.Machine.execIdcode s
  | .samplePreload pins => Sys2Proof.Machine.execSamplePreload pins s
  | .extest => Sys2Proof.Machine.execExtest s
  | .selectDie site => Sys2Proof.Machine.execSelectDie site s
  | .bypass => Sys2Proof.Machine.execBypass s
  | .dieIdcode => Sys2Proof.Machine.execDieIdcode s
  | .standalone enter => Sys2Proof.Machine.execStandalone enter s
  | .loopback v => Sys2Proof.Machine.execLoopback v s
  | .loopbackRunDone errors => Sys2Proof.Machine.execLoopbackRunDone errors s
  | .bist selector passMap => Sys2Proof.Machine.execBist selector passMap s
  | .hbm1500 v => Sys2Proof.Machine.execHbm1500 v s
  | .dieBypass => Sys2Proof.Machine.execDieBypass s
  | .flrTestCtlWrite v => Sys2Proof.Machine.execFlrTestCtlWrite v s
  | .tileDieFault site => Sys2Proof.Machine.execTileDieFault site s
  | .isolateTimeout site => Sys2Proof.Machine.execIsolateTimeout site s
  | .hostCoreFault h => Sys2Proof.Machine.execHostCoreFault h s
  | .sharedDieFault f => Sys2Proof.Machine.execSharedDieFault f s
  | .deviceWarmReset cause site agents => Sys2Proof.Machine.execDeviceWarmReset cause site agents s
  | .powerCycleRequest cause => Sys2Proof.Machine.execPowerCycleRequest cause s
  | .watchdogExpiry c recent => Sys2Proof.Machine.execWatchdogExpiry c recent s
  | .thermalLoopTick temps => Sys2Proof.Machine.execThermalLoopTick temps s
  | .powerLoopTick watts => Sys2Proof.Machine.execPowerLoopTick watts s
  | .thermalClamp site temp => Sys2Proof.Machine.execThermalClamp site temp s
  | .loopsMissedClamp => Sys2Proof.Machine.execLoopsMissedClamp s
  | .pwrBrakeAssert => Sys2Proof.Machine.execPwrBrakeAssert s
  | .pwrBrakeDeassert => Sys2Proof.Machine.execPwrBrakeDeassert s
  | .supplyExcursion quarterVolts => Sys2Proof.Machine.execSupplyExcursion quarterVolts s
  | .supplyOutOfRange quarterVolts => Sys2Proof.Machine.execSupplyOutOfRange quarterVolts s
  | .setBeats slot slots arg => Sys2Proof.Machine.execSetBeats slot slots arg s
  | .logSlots slot slots arg => Sys2Proof.Machine.execLogSlots slot slots arg s
  | .telemSlots slot slots arg => Sys2Proof.Machine.execTelemSlots slot slots arg s
  | .telemetryTick => Sys2Proof.Machine.execTelemetryTick s
  | .logFlushTick => Sys2Proof.Machine.execLogFlushTick s
  | .stageImage slot slots arg => Sys2Proof.Machine.execStageImage slot slots arg s
  | .imageVerified v => Sys2Proof.Machine.execImageVerified v s
  | .activate slot slots arg => Sys2Proof.Machine.execActivate slot slots arg s
  | .activationRestart => Sys2Proof.Machine.execActivationRestart s
  | .cutinApprove slot slots arg => Sys2Proof.Machine.execCutinApprove slot slots arg s
  | .cutinDecline slot slots arg => Sys2Proof.Machine.execCutinDecline slot slots arg s
  | .standingApproval slot slots arg => Sys2Proof.Machine.execStandingApproval slot slots arg s
  | .providerNotice slot slots arg => Sys2Proof.Machine.execProviderNotice slot slots arg s
  | .clearRemap slot slots arg => Sys2Proof.Machine.execClearRemap slot slots arg s
  | .warmReset slot slots arg => Sys2Proof.Machine.execWarmReset slot slots arg s
  | .mntNegDrvWrite p v => Sys2Proof.Machine.execMntNegDrvWrite p v s
  | .tileCutin tile => Sys2Proof.Machine.execTileCutin tile s
  | .stackRetrain k ok => Sys2Proof.Machine.execStackRetrain k ok s
  | .fullServiceEntry fullMs => Sys2Proof.Machine.execFullServiceEntry fullMs s
  | .i3cPrivateRead => Sys2Proof.Machine.execI3cPrivateRead s
  | .entdaa addr => Sys2Proof.Machine.execEntdaa addr s
  | .setdasa addr => Sys2Proof.Machine.execSetdasa addr s
  | .registerWrite src addr v => Sys2Proof.Machine.execRegisterWrite src addr v s
  | .chasseFlit e dir x => Sys2Proof.Machine.execChasseFlit e dir x s
  | .wearMonitor f => Sys2Proof.Machine.execWearMonitor f s
  | .lpddrRefreshRateReport ch rate => Sys2Proof.Machine.execLpddrRefreshRateReport ch rate s
  | .thermalClampRelease site temp => Sys2Proof.Machine.execThermalClampRelease site temp s
  | .minuetCoreRestart c => Sys2Proof.Machine.execMinuetCoreRestart c s
  | .supplyExcursionEnd quarterVolts => Sys2Proof.Machine.execSupplyExcursionEnd quarterVolts s
  | .refReturn => Sys2Proof.Machine.execRefReturn s
  | .reelPortTraining port up => Sys2Proof.Machine.execReelPortTraining port up s
  | .windowAccessRefused id => Sys2Proof.Machine.execWindowAccessRefused id s

end Sys2Proof.Machine
end

