-- ==== Sys2Proof/Machine/Idle.lean ====
section
/-! DEFINITION. What passing time does while no command waits (log 1): one cycle of REF, 6.4 ns (13 R327). Partition cycle
counters count, the CORE cycles of resident contexts are metered (12 R307), and re-initialisations come to their last step
(16 R371, log 15); a firmware handover takes its next stage (17 R393, log 26). -/

namespace Sys2Proof.Machine

open Sys2Proof

/-- A partition's cycle counter counts from ACTIVE until the partition is dissolved (R327). -/
def Dev.tickPart (d : Dev) (p : Nat) : Dev :=
  if d.partState p = partFree then d else d.setPart p { d.part p with cycles := (d.part p).cycles + 1 }

/-- The CORE divider of a tile (R383): 8 where its site has none yet. -/
def Dev.coreDiv (d : Dev) (t : Nat) : Nat :=
  match d.siteOf t with
  | some n => if d.get fFlrSiteStatCoreDiv n = 0 then 8 else d.get fFlrSiteStatCoreDiv n
  | none => 8

/-- The CORE cycles of one REF cycle at divider v: CORE is 8,400 MHz / v, REF 156.25 MHz, so 1344 / (25 v), with the
fraction kept. -/
def coreCyclesOf (v frac : Nat) : Nat × Nat := ((frac + 1344) / (25 * v), (frac + 1344) % (25 * v))

/-- The CORE cycles of a context with a group resident on core k (R307). -/
def Dev.tickCore (d : Dev) (k : Nat) : Dev :=
  match (d.core k).run with
  | none => d
  | some r =>
    if r.groups.all (fun x => x.2.sched = .exited) then d
    else
      let (n, frac) := coreCyclesOf (d.coreDiv (k / 16)) (smapGet d.tempo.fractions k 0)
      let d := d.meter r.ctx fun m => { m with coreCycles := m.coreCycles + BitVec.ofNat 64 n }
      d.setTempo { d.tempo with
        fractions := smapPut d.tempo.fractions k frac
        attempt := smapPut d.tempo.attempt k (smapGet d.tempo.attempt k 0 + n) }

/-- A re-initialisation under way comes to step 6. -/
def Dev.tickReinit (d : Dev) (p : Nat) : Dev := d.finishReinit p

/-- One REF cycle in which the block is given no command. -/
def Dev.idle (d : Dev) : Dev :=
  if d.halted then d
  else
    let d := (List.range 48).foldl Dev.tickPart d
    let d := (d.cores.map (·.1)).foldl Dev.tickCore d
    let d := ((List.range 48).foldl (fun d p => d.createAgain p) d).resendTurned
    ((List.range 48).foldl Dev.tickReinit d).handoverTick

end Sys2Proof.Machine
end

