-- ==== Sys2Proof/WellFormed.lean ====
section
/-! DEFINITION. Well-formed commands: a Jular row carries the selecting field of its own row (03 R77, R78, R80), and what arrives
from another module, a requester or a sensor has a shape the spec admits (R78, R230, R342). -/

namespace Sys2Proof

/-- An atomic on 4 or 8 bytes at an offset of its line: a listed AOP, naturally aligned, inside the line (R78). -/
def atomFits (off : Nat) (aop : BitVec 4) (wide : Bool) : Bool :=
  aop.toNat ≤ 10 && off % (if wide then 8 else 4) = 0

/-- A window access of another module: a natural size, or at most one line of bytes that stay in their line (R230). -/
def RemoteOp.wf (off : Nat) : RemoteOp → Bool
  | .read size => [1, 2, 4, 8, 16].contains size && off % size = 0
  | .write bytes => 1 ≤ bytes.length && off % 64 + bytes.length ≤ 64
  | .atomic aop wide _ _ => atomFits off aop wide

/-- A collective segment as it travels: one to 64 bytes of one line (R342). -/
def SegMsg.wf (m : SegMsg) : Bool := 1 ≤ m.bytes.length && m.off.toNat % 64 + m.bytes.length ≤ 64

/-- Is a command well-formed? -/
def Instr.wf : Instr → Bool
  | .ld _ o => o.sem = 0
  | .ldV _ o => o.sem = 1
  | .ldAcq _ o => o.sem = 2
  | .st _ o => o.sem = 0
  | .stRel _ o => o.sem = 3
  | .atomAdd _ o => o.fn.toNat % 16 = 0
  | .atomFadd _ o => o.fn.toNat % 16 = 1
  | .atomAnd _ o => o.fn.toNat % 16 = 2
  | .atomOr _ o => o.fn.toNat % 16 = 3
  | .atomXor _ o => o.fn.toNat % 16 = 4
  | .atomSmin _ o => o.fn.toNat % 16 = 5
  | .atomSmax _ o => o.fn.toNat % 16 = 6
  | .atomUmin _ o => o.fn.toNat % 16 = 7
  | .atomUmax _ o => o.fn.toNat % 16 = 8
  | .atomExch _ o => o.fn.toNat % 16 = 9
  | .atomCas _ o => o.fn.toNat % 16 = 10
  | .lds _ o => o.scope.getLsbD 2 = false
  | .sts _ o => o.scope.getLsbD 2 = true
  | .fenceAcq _ o => o.sem = 2
  | .fenceRel _ o => o.sem = 3
  | .fenceAr _ o => o.sem = 4
  | .zline _ o => o.fn.toNat % 8 = 0
  | .zlineS _ o => o.fn.toNat % 8 = 1
  | .invNearL _ o => o.fn.toNat % 8 = 2
  | .wbNearL _ o => o.fn.toNat % 8 = 3
  | .invNear _ o => o.fn.toNat % 8 = 4
  | .wbNear _ o => o.fn.toNat % 8 = 5
  | .pfNear _ o => o.fn.toNat % 8 = 6
  | .pfS _ o => o.fn.toNat % 8 = 7
  | .statfStatistics _ o => o.imm32.getLsbD 0 = false
  | .statfMonitor _ o => o.imm32.getLsbD 0 = true
  | .strAtom _ _ off aop wide _ _ => atomFits off.toNat aop wide
  | .remoteWindowAccess _ _ off _ op _ => op.wf off.toNat
  | .ulkAllowanceDeclaration _ _ half upper => half || !upper
  | .remoteFenceSignal _ _ off _ _ _ => off.toNat % 64 = 0
  | .collectiveSegment _ m => m.wf
  | .chasseRetrainComplete _ a b => decide a.Nodup && decide b.Nodup
  | .thermalLoopTick temps => decide (temps.map (·.1)).Nodup
  | .add _ _ | .sub _ _ | .mul _ _ | .fma _ _ | .min _ _ | .max _ _ | .abs _ _ | .neg _ _ | .and _ _ | .or _ _
  | .xor _ _ | .not _ _ | .shl _ _ | .shr _ _ | .mulhi _ _ | .div _ _ | .rem _ _ | .sqrt _ _ | .rcp _ _ | .rsq _ _
  | .exp2 _ _ | .log2 _ _ | .mov _ _ | .sel _ _ | .clz _ _ | .popc _ _ | .eq _ _ | .ne _ _ | .lt _ _ | .le _ _
  | .gt _ _ | .ge _ _ | .pand _ _ | .por _ _ | .pxor _ _ | .pnot _ _ | .vcvt _ _ | .xchPick _ _ | .xchMirror _ _
  | .xchRot _ _ | .xchSeghead _ _ | .redAdd _ _ | .redMin _ _ | .redMax _ _ | .tid _ _ | .rngDraw _ _ | .onlmax _ _
  | .rescl _ _ | .wupdSr3 _ _ | .wupdSr4 _ _ | .wupdRn _ _ | .uniAdd _ _ | .uniSub _ _ | .uniMul _ _ | .uniMulhu _ _
  | .uniAnd _ _ | .uniOr _ _ | .uniXor _ _ | .uniShl _ _ | .uniShr _ _ | .uniSar _ _ | .uniMin _ _ | .uniMax _ _
  | .uniUmin _ _ | .uniUmax _ _ | .uniMov _ _ | .umoviLo _ _ | .umoviHi _ _ | .ucmpEq _ _ | .ucmpNe _ _ | .ucmpLt _ _
  | .ucmpLe _ _ | .ucmpUlt _ _ | .ucmpUle _ _ | .ureadGidx _ _ | .ureadRank _ _ | .ureadTroupe _ _ | .ureadTsize _ _
  | .ureadNcores _ _ | .ureadSeq _ _ | .qwidth _ _ | .qarrays _ _ | .ureadCycle _ _ | .ureadArg _ _ | .mma _ _
  | .wload _ _ | .mdrain _ _ | .weightRowsWritten _ _ | .mmaProductsInChain _ _ | .drainComplete _ _ _
  | .arrayHandover _ _ | .atoms _ _ | .nop _ _ | .braAny _ _ | .braAll _ _ | .split _ _ | .join _ _ | .call _ _
  | .ret _ _ | .brx _ _ | .exit _ _ | .barUnit _ _ | .barrierRelease _ _ | .rfill _ _ | .ringFillComplete _ _ _
  | .waitring _ _ | .waitringRel _ _ | .nsplit _ _ | .groupWake _ _ | .issueSlotTake _ | .troupeStart _
  | .laneResidueFail _ _ | .columnResidueFail _ _ _ | .rdShared _ _ | .rdOwn _ _ | .claimOwn _ _ | .evict _ _
  | .writeBack _ _ | .snpShared _ _ | .snpInv _ _ | .snpResp _ _ | .data _ | .dataRedirect _ _ | .strRd _ _ _
  | .strWr _ _ _ _ | .agentLocalRead _ _ | .agentLocalWrite _ _ _ _ | .agentReplacement _ _
  | .ownershipHoldExpiry _ _ | .retry _ _ | .nack _ _ | .nackBackoffExpiry _ _ | .reservationTimeout _ _
  | .homeTimeout _ _ | .agentDeadNotice _ _ | .shcHomeCtlWrite _ _ | .measureBoundary _ | .stackTemperatureRead _ _
  | .patrolScrub _ _ | .remapCopy _ | .shadowCopy _ _ _ | .carveOutScrub _ | .snoopFilterMaintenance _ _
  | .promenadeCalibration _ | .walkComplete _ _ _ | .faultEntryFreed _ | .xltFqResolveRetry _ _
  | .xltFqResolveFail _ _ | .xltFqConsWrite _ _ | .xltWinInval _ | .windowInvalDrained | .remoteAccessAck _
  | .kernel _ _ | .copy _ _ | .fill _ _ | .collective _ _ | .wait _ _ | .signal _ _ | .rangeSync _ _ | .marker _ _
  | .create _ _ | .destroy _ _ | .abort _ _ _ | .clrDbTailWrite _ _ _ | .resume _ _ | .slotRead _
  | .commandDispatch _ _ | .engineGrant _ _ | .preemptionKill _ _ | .sliceExpiry _ _ | .execTimeoutExpiry _ _
  | .drainAckTimeout _ _ _ | .killAckTimeout _ _ _ | .engineAck _ _ _ | .waitTimeoutExpiry _ _ | .workFinished _ _
  | .commitRequest _ _ | .killAtArbiter _ _ | .fenceSignal _ | .fenceErrorStore _ | .waitRelease _ _
  | .fenceReread _ _ | .clrFencePost _ _ _ | .clrQRangeWrite _ _ _ | .activatePartition _ | .dissolve _
  | .reinitialise _ | .reinitOverrun _ | .hbmReplPairWrite _ _ | .hbmFwMapWrite _ _ | .snapshotGo _ | .snapshotSample
  | .attestGo _ | .fzctxWrite _ _ _ | .hostForbiddenAccess _ _ _ _ | .prtIntWrite _ _ _ | .ulkFlit _ _ _ _
  | .ulkReplayLimit | .ulkLockLoss | .retrain _ | .configRead _ | .configWrite _ _ | .timeMark _ _
  | .xwConfigWrite _ _ | .reelWavelengthLoss _ _ | .remoteSignalRetry _ | .orderedCombine _ _ | .chasseRetrain _ _ _
  | .laserLoss _ _ | .promenadeScheduleChange | .pllLockLoss _ | .refLoss | .refHoldoverExpiry | .powerReset
  | .moduleReset | .isolateReset _ | .resetRelease _ | .idcode | .samplePreload _ | .extest | .selectDie _ | .bypass
  | .dieIdcode | .standalone _ | .loopback _ | .loopbackRunDone _ | .bist _ _ | .hbm1500 _ | .dieBypass
  | .flrTestCtlWrite _ | .tileDieFault _ | .isolateTimeout _ | .hostCoreFault _ | .sharedDieFault _
  | .deviceWarmReset _ _ _ | .powerCycleRequest _ | .watchdogExpiry _ _ | .powerLoopTick _ | .thermalClamp _ _
  | .loopsMissedClamp | .pwrBrakeAssert | .pwrBrakeDeassert | .supplyExcursion _ | .supplyOutOfRange _
  | .setBeats _ _ _ | .logSlots _ _ _ | .telemSlots _ _ _ | .telemetryTick | .logFlushTick | .stageImage _ _ _
  | .imageVerified _ | .activate _ _ _ | .activationRestart | .cutinApprove _ _ _ | .cutinDecline _ _ _
  | .standingApproval _ _ _ | .providerNotice _ _ _ | .clearRemap _ _ _ | .warmReset _ _ _ | .mntNegDrvWrite _ _
  | .tileCutin _ | .stackRetrain _ _ | .fullServiceEntry _ | .i3cPrivateRead | .entdaa _ | .setdasa _
  | .registerWrite _ _ _ | .chasseFlit _ _ _ | .wearMonitor _ | .lpddrRefreshRateReport _ _
  | .thermalClampRelease _ _ | .minuetCoreRestart _ | .supplyExcursionEnd _ | .refReturn | .reelPortTraining _ _
  | .windowAccessRefused _ => true

end Sys2Proof
end

