-- ==== Sys2Proof/Safety.lean ====
section
/-! DEFINITION. What statements speak of: the invariants that every step keeps, when an instruction's thread can issue, and the
rows of the opcode table that share one shape. -/

namespace Sys2Proof.Machine

open Sys2Proof

/-! ### Invariants -/

/-- Memory is in its canonical form. -/
abbrev Mem.wf (m : Mem) : Prop := memWf m = true

/-- The invariant of the device's memory. -/
def State.MemOk (s : State) : Prop := Mem.wf s.dev.mem

/-! ### Threads -/

/-- The state with its device replaced; the queue of waiting commands stays. -/
def State.withDev (s : State) (d : Dev) : State := { s with dev := d }

/-- The thread of an actor, if its core runs a troupe that has it. -/
def State.thread (s : State) (w : Who) : Option Grp := (s.dev.core w.core.val).run.bind fun r => r.thr w.thr

/-- An actor's thread g of the troupe r on the core c can issue its next instruction (R27, R47, R58, R59, R264): the device is not held at
level 4, the core has not stopped and is under no order to stop, the thread holds an issue slot and waits for no fill, and its word lies
in the code region and is not reserved. -/
structure State.Issues (s : State) (w : Who) (c : Core) (r : Run) (g : Grp) : Prop where
  live : s.dev.halted = false
  core : s.dev.core w.core.val = c
  run : c.run = some r
  thr : r.thr w.thr = some g
  works : c.stopped = false
  active : g.sched = .active
  may : s.dev.mayIssue w r = true
  code : r.hdr.inCode g.pc = true
  word : s.dev.reservedWord w r g = false

/-- The state with one thread changed and nothing else: no memory, register, queue, other core or other thread. -/
def State.withThr (s : State) (w : Who) (c : Core) (r : Run) (g : Grp) : State := s.withDev (s.dev.putThr w c r g)

/-- A thread that only went on to its next instruction word. -/
def State.advanced (s : State) (w : Who) (c : Core) (r : Run) (g : Grp) : State := s.withThr w c r g.step

/-- A core of a live device that runs a troupe. -/
structure State.RunsOn (s : State) (k : Nat) (c : Core) (r : Run) : Prop where
  live : s.dev.halted = false
  core : s.dev.core k = c
  run : c.run = some r

/-- The state with one core's troupe changed and nothing else. -/
def State.withRun (s : State) (k : Nat) (c : Core) (r : Run) : State :=
  s.withDev (s.dev.setCore k { c with run := some r })

/-! ### Rows of one shape -/

/-- A function of major 0x01 (R66): its row, the types it admits, the sources it uses, and its value on one thread from the type,
p[PD] and the three sources. -/
structure VectorRow where
  instr : Who → VOp → Instr
  shape : VShape
  fn : VTy → Bool → W64 → W64 → W64 → VRes

/-- The functions of R66. -/
def vectorRows : List VectorRow :=
  [⟨.add, ⟨allTypes, true, true, false⟩, fun ty _ a b _ => vAdd ty a b⟩,
   ⟨.sub, ⟨allTypes, true, true, false⟩, fun ty _ a b _ => vSub ty a b⟩,
   ⟨.mul, ⟨allTypes, true, true, false⟩, fun ty _ a b _ => vMul ty a b⟩,
   ⟨.fma, ⟨allTypes, true, true, true⟩, fun ty _ a b c => vFma ty a b c⟩,
   ⟨.min, ⟨allTypes, true, true, false⟩, fun ty _ a b _ => vMinMax ty false a b⟩,
   ⟨.max, ⟨allTypes, true, true, false⟩, fun ty _ a b _ => vMinMax ty true a b⟩,
   ⟨.abs, ⟨signedTypes, true, false, false⟩, fun ty _ a _ _ => vAbs ty a⟩,
   ⟨.neg, ⟨signedTypes, true, false, false⟩, fun ty _ a _ _ => vNeg ty a⟩,
   ⟨.and, ⟨intTypes, true, true, false⟩, fun ty _ a b _ => vAnd ty a b⟩,
   ⟨.or, ⟨intTypes, true, true, false⟩, fun ty _ a b _ => vOr ty a b⟩,
   ⟨.xor, ⟨intTypes, true, true, false⟩, fun ty _ a b _ => vXor ty a b⟩,
   ⟨.not, ⟨intTypes, true, false, false⟩, fun ty _ a _ _ => vNot ty a⟩,
   ⟨.shl, ⟨intTypes, true, true, false⟩, fun ty _ a b _ => vShl ty a b⟩,
   ⟨.shr, ⟨intTypes, true, true, false⟩, fun ty _ a b _ => vShr ty a b⟩,
   ⟨.mulhi, ⟨intTypes, true, true, false⟩, fun ty _ a b _ => vMulhi ty a b⟩,
   ⟨.div, ⟨divTypes, true, true, false⟩, fun ty _ a b _ => vDiv ty a b⟩,
   ⟨.rem, ⟨intTypes, true, true, false⟩, fun ty _ a b _ => vRem ty a b⟩,
   ⟨.sqrt, ⟨floatTypes, true, false, false⟩, fun ty _ a _ _ => vSqrt ty a⟩,
   ⟨.rcp, ⟨[.f32], true, false, false⟩, fun ty _ a _ _ => vRcp ty a⟩,
   ⟨.rsq, ⟨[.f32], true, false, false⟩, fun ty _ a _ _ => vRsq ty a⟩,
   ⟨.exp2, ⟨[.f32], true, false, false⟩, fun ty _ a _ _ => vExp2 ty a⟩,
   ⟨.log2, ⟨[.f32], true, false, false⟩, fun ty _ a _ _ => vLog2 ty a⟩,
   ⟨.mov, ⟨allTypes, false, true, false⟩, fun _ _ _ b _ => vExact b⟩,
   ⟨.sel, ⟨allTypes, true, true, false⟩, fun _ p a b _ => vExact (if p then a else b)⟩,
   ⟨.clz, ⟨[.i32, .u32], true, false, false⟩, fun ty _ a _ _ => vClz ty a⟩,
   ⟨.popc, ⟨[.i32, .u32], true, false, false⟩, fun ty _ a _ _ => vPopc ty a⟩]

/-- The fields a compare of R68 uses. -/
def compareShape : VShape := { types := scalarTypes, s1 := true, s2 := true, s3 := false }

/-- The compares of R68, with the compare each makes. -/
def compareRows : List ((Who → VOp → Instr) × Cmp) :=
  [(.eq, .eq), (.ne, .ne), (.lt, .lt), (.le, .le), (.gt, .gt), (.ge, .ge)]

/-- The predicate combinations of R68, with the combination each makes bit by bit. -/
def predicateRows : List ((Who → VOp → Instr) × (Bool → Bool → Bool)) :=
  [(.pand, fun a b => a && b), (.por, fun a b => a || b), (.pxor, fun a b => xor a b), (.pnot, fun a _ => !a)]

/-- The fields an exchange and a reduction of R70 use. -/
def exchangeShape : VShape := { types := allTypes, s1 := true, s2 := true, s3 := false }
def reductionShape : VShape := { types := scalarTypes, s1 := true, s2 := false, s3 := false }

/-- The exchange functions of R70, with the thread that thread t reads from, given its second source. -/
def exchangeRows : List ((Who → VOp → Instr) × (Nat → Nat → Nat)) :=
  [(.xchPick, fun _ x => x % 64), (.xchMirror, fun t x => t ^^^ (x % 64)), (.xchRot, fun t x => (t + x) % 64),
   (.xchSeghead, fun t x => t - t % 2 ^ min (x % 8) 6)]

/-- The reductions of R70, with the operation each folds with. -/
def reductionRows : List ((Who → VOp → Instr) × (VTy → W64 → W64 → VRes)) :=
  [(.redAdd, vAdd), (.redMin, fun ty => vMinMax ty false), (.redMax, fun ty => vMinMax ty true)]

/-- The weight updates of R73, with the width of their random field, 0 for rounding to nearest (R132). -/
def weightUpdateRows : List ((Who → VOp → Instr) × Nat) := [(.wupdSr3, 3), (.wupdSr4, 4), (.wupdRn, 0)]

/-- The functions of major 0x10 (R74) on u[US1] and the second source. -/
def uniformRows : List ((Who → UOp → Instr) × (W64 → W64 → W64)) :=
  [(.uniAdd, fun a b => a + b), (.uniSub, fun a b => a - b), (.uniMul, fun a b => a * b),
   (.uniMulhu, fun a b => BitVec.ofNat 64 (a.toNat * b.toNat / 2 ^ 64)), (.uniAnd, fun a b => a &&& b),
   (.uniOr, fun a b => a ||| b), (.uniXor, fun a b => a ^^^ b), (.uniShl, fun a b => a <<< (b.toNat % 64)),
   (.uniShr, fun a b => a >>> (b.toNat % 64)), (.uniSar, fun a b => a.sshiftRight (b.toNat % 64)),
   (.uniMin, fun a b => if b.toInt < a.toInt then b else a), (.uniMax, fun a b => if a.toInt < b.toInt then b else a),
   (.uniUmin, fun a b => if b.toNat < a.toNat then b else a), (.uniUmax, fun a b => if a.toNat < b.toNat then b else a),
   (.uniMov, fun _ b => b)]

/-- The compares of major 0x12 (R74). -/
def uniformCompareRows : List ((Who → UOp → Instr) × (W64 → W64 → Prop)) :=
  [(.ucmpEq, fun a b => a = b), (.ucmpNe, fun a b => a ≠ b), (.ucmpLt, fun a b => a.toInt < b.toInt),
   (.ucmpLe, fun a b => a.toInt ≤ b.toInt), (.ucmpUlt, fun a b => a.toNat < b.toNat), (.ucmpUle, fun a b => a.toNat ≤ b.toNat)]

/-- The identity reads of major 0x13 (R75): what each puts in u[UD]. -/
def uniformReadRows (s : State) (w : Who) (o : UOp) : List ((Who → UOp → Instr) × (Core → Run → Grp → Nat)) :=
  [(.ureadGidx, fun _ _ g => if thrIsLead w.thr then 0 else g.gidx),
   (.ureadRank, fun _ _ g => if thrIsLead w.thr then 0 else g.rank),
   (.ureadTroupe, fun _ r _ => r.troupe), (.ureadTsize, fun _ r _ => r.hdr.groups),
   (.ureadNcores, fun _ r _ => r.cores.length), (.ureadSeq, fun _ r _ => r.seq.toNat),
   (.qwidth, fun c _ _ => (c.arrayWidths[o.imm20.toNat]?).getD 0), (.qarrays, fun c _ _ => c.arrayWidths.length),
   (.ureadCycle, fun _ r _ => (s.dev.cycleCounter r.part).toNat),
   (.ureadArg, fun _ r _ => ((r.args[o.imm20.toNat]?).getD 0).toNat)]

/-- The loads of R77, with the SEM each has. -/
def loadRows : List ((Who → MemOp → Instr) × Nat) := [(.ld, 0), (.ldV, 1), (.ldAcq, 2)]

/-- A store of R77 or R80: its row, decode checks, registers, bytes a thread, whether it goes through the near cache, whether it is a
release, whether the near copy takes the bytes, the value a thread stores, and what STAT counts. -/
structure StoreRow where
  instr : Who → MemOp → Instr
  bad : MemOp → Run → Bool
  regs : MemOp → List Nat
  bytes : MemOp → Nat
  near : Bool
  release : Bool
  update : Bool
  val : MemOp → Grp → Nat → Nat
  counts : MemOp → List Nat → List ElemCount

def storeRows : List StoreRow :=
  [⟨.st, fun o r => memBad 0 o r || statBad o, memRegs, fun o => sizeBytes o.size, true, false, true,
    fun o g t => g.memVal o.vr.toNat (sizeBytes o.size) t, fun o => statElems o (sizeBytes o.size)⟩,
   ⟨.stRel, fun o r => memBad 3 o r || statBad o, memRegs, fun o => sizeBytes o.size, false, true, true,
    fun o g t => g.memVal o.vr.toNat (sizeBytes o.size) t, fun o => statElems o (sizeBytes o.size)⟩,
   ⟨.zline, copBad, fun _ => [], fun _ => 64, true, false, true, fun _ _ _ => 0, fun _ _ => []⟩,
   ⟨.zlineS, copBad, fun _ => [], fun _ => 64, false, false, false, fun _ _ _ => 0, fun _ _ => []⟩]

/-- The atomics of R78, with their AOP. -/
def atomicRows : List ((Who → MemOp → Instr) × Nat) :=
  [(.atomAdd, 0), (.atomFadd, 1), (.atomAnd, 2), (.atomOr, 3), (.atomXor, 4), (.atomSmin, 5), (.atomSmax, 6), (.atomUmin, 7),
   (.atomUmax, 8), (.atomExch, 9), (.atomCas, 10)]

/-- The fences of R77, with their SEM. -/
def fenceRows : List ((Who → MemOp → Instr) × BitVec 3) := [(.fenceAcq, 2), (.fenceRel, 3), (.fenceAr, 4)]

/-- The two STATF rows (R90), with the record each stores, the thread with that record cleared, and whether drains count into it
(R131, R134). -/
def statfRows : List ((Who → SOp → Instr) × (Grp → List Byte) × (Grp → Grp) × Bool) :=
  [(.statfStatistics, fun g => g.stats.bytes, fun g => { g with stats := Stats.zero }, true),
   (.statfMonitor, fun g => monitorBytes g.monitor, fun g => { g with monitor := [] }, false)]

/-- A line of HBM that is backed, good and at rest: no transaction of it under way, no copy at an agent. -/
structure Dev.PlainLine (d : Dev) (n : Nat) : Prop where
  hbm : isHbm (64 * n) = true
  backed : d.backed (64 * n) = true
  good : d.isPoisoned n = false ∧ d.hbm.bad.contains n = false ∧ d.hbm.weak.contains n = false
  idle : d.lineBusy n = false
  alone : ∀ a < 14, (d.aline a n).st = .i

/-! ### Coherence -/

/-- An agent's request for a line that it lacks, or for its shared copy as its own, with no transaction of the line open (R173, R175):
the home takes it (`some d1`, with its entry and its token, R180, R306), or turns it away (`none`). -/
structure Dev.Requests (d : Dev) (a n : Nat) (kind : AgentReq) (taken : Option Dev) : Prop where
  may : mayCache a n = true
  crosses : d.reaches a = true
  alive : d.knowsDead (d.home (64 * n)) a = false
  holds : (d.aline a n).st = if kind = .claimOwn then .s else .i
  free : (d.aline a n).req = none ∨ (d.aline a n).req = some kind
  stays : (d.aline a n).leaving = false
  once : d.agentAsks a n = false
  room : d.agentFull a n = false ∨ d.agentWays a = 0
  sends : d.backsOff (d.home (64 * n)) (agentNum a) = false
  first : d.firstTxn n = none
  tagged : n ∉ d.coh.suspect
  answer : (d.setAline a n { d.aline a n with req := some kind }).accepts (d.home (64 * n)) (d.agentRq a n) = taken

/-- A line that is backed and holds neither poison nor an error of its cells. -/
structure Dev.GoodLine (d : Dev) (n : Nat) : Prop where
  backed : d.backed (64 * n) = true
  clean : d.isPoisoned n = false
  sound : n ∉ d.hbm.bad
  strong : n ∉ d.hbm.weak

/-- A good line read at its home for a request: kept in the slice (R210), and on a miss its next line is prefetched (R161). -/
def Dev.keepsLine (d : Dev) (rq : Rq) (n : Nat) : Dev :=
  let h := d.home (64 * n)
  let d1 := d.shcTouch h rq.part n false
  if d.shcHas h n then d1 else d1.slicePrefetch rq n

/-- An activity's lines taken out of its beats of the measure (R301). -/
def Dev.spent (d : Dev) (n k lines : Nat) : Dev :=
  d.setTempo { d.tempo with used := smapPut d.tempo.used (16 * n + k) (smapGet d.tempo.used (16 * n + k) 0 + lines) }

/-- What another module's access asks of its window: bit 0 READ, bit 1 WRITE, bit 2 ATOMIC (R230). -/
def remoteAsks : RemoteOp → Nat
  | .read _ => 1
  | .write _ => 2
  | .atomic _ _ _ _ => 4

/-- The coherent requests of R173 and what each asks of the home. -/
def coherentRows : List ((Fin 14 → BitVec 46 → Instr) × AgentReq × (Nat → Rq → HomeReq)) :=
  [(.rdShared, .rdShared, .rdShared), (.rdOwn, .rdOwn, .rdOwn), (.claimOwn, .claimOwn, .claimOwn)]

/-- The two snoops, and whether each invalidates. -/
def snoopRows : List ((Fin 14 → BitVec 46 → Instr) × Bool) := [(.snpShared, false), (.snpInv, true)]

/-- A message is the first of its kind from or to an agent for a line. -/
def Dev.OnlyResp (d : Dev) (a n : Nat) (st : LState) (owes : Bool) : Prop :=
  .resp n a st owes false ∈ d.coh.msgs ∧ ∀ st' o' l', CohMsg.resp n a st' o' l' ∈ d.coh.msgs → (st', o', l') = (st, owes, false)

def Dev.OnlyGrant (d : Dev) (a n : Nat) (st : LState) (withData : Bool) (x : Line) (bad : Bool) : Prop :=
  .grant n a st withData x bad ∈ d.coh.msgs
    ∧ ∀ st' w' x' b', CohMsg.grant n a st' w' x' b' ∈ d.coh.msgs → (st', w', x', b') = (st, withData, x, bad)

def Dev.OnlyHomeData (d : Dev) (a n : Nat) (x : Line) (bad : Bool) : Prop :=
  .toHome n a x bad ∈ d.coh.msgs ∧ ∀ x' b', CohMsg.toHome n a x' b' ∈ d.coh.msgs → (x', b') = (x, bad)

def Dev.OnlyAnswer (d : Dev) (num n : Nat) (x : Line) (bad : Bool) : Prop :=
  .toRequester n num x bad ∈ d.coh.msgs ∧ ∀ x' b', CohMsg.toRequester n num x' b' ∈ d.coh.msgs → (x', b') = (x, bad)

def Dev.OnlyRedirect (d : Dev) (who : Sender) (n k : Nat) (r : HomeReq) : Prop :=
  .redirect n who k r ∈ d.coh.msgs ∧ ∀ k' r', CohMsg.redirect n who k' r' ∈ d.coh.msgs → (k', r') = (k, r)

/-- No stream request waits at an agent for a line. -/
def Dev.noWaits (d : Dev) (a n : Nat) : Prop := ∀ w ∈ d.coh.waits, ¬(w.agent = a ∧ w.line = n)

/-! ### Registers -/

/-- The registers whose writes have a rule of their own beside their fields' access types. -/
def ownRuleRegs : List Reg :=
  [.prtCtl, .clrQctl, .clrFencePost, .clrQRange, .clrCtxRange, .xltFqResolve, .xltFqCons, .xltWinInval, .prtIntFault, .prtIntFence,
   .prtAttestCtl, .mtrSnapCtl, .hbmFwMap, .hbmReplPair, .hbmRasCtl, .ulkCtl, .ulkXwBase, .ulkXwFlags, .mntMboxCmd, .flrTestCtl,
   .cutWearCtl, .mntNegDrv, .relModuleId, .tmpBeats, .mntWdogCtl, .prtNearPfMask]

/-- What a software write leaves in a field (R7, R10). -/
def fieldAfter (locked : Bool) (f : FieldInfo) (old new : Nat) : Nat :=
  match f.acc with
  | .rw => if inRanges new f.reserved then old else new
  | .rwl => if locked || inRanges new f.reserved then old else new
  | .w1c => old - Nat.land old new
  | _ => old

/-! ### The mailbox -/

/-- The mailbox has answered a command with RESULT r (R388). -/
structure State.Answered (s t : State) (r : Nat) : Prop where
  busy : t.dev.get fMntMboxStatBusy = 0
  result : t.dev.get fMntMboxStatResult = r
  seq : t.dev.get fMntMboxStatSeq = (s.dev.get fMntMboxStatSeq + 1) % 2 ^ 32

/-- The mailbox takes a command: the device acts and the last command has been answered. -/
structure State.Asks (s : State) : Prop where
  live : s.dev.halted = false
  ready : s.dev.get fMntMboxStatBusy = 0

/-! ### Level 4 -/

/-- Events at the pins, the sideband and the module TAP, which a device held at level 4 still meets (R363, R376, R430). -/
def atPins : Instr → Bool
  | .powerReset | .moduleReset | .resetRelease _ | .refLoss | .refReturn | .idcode | .samplePreload _ | .extest | .bypass
  | .i3cPrivateRead | .entdaa _ | .setdasa _ => true
  | _ => false

/-- Stand-alone test, which stays usable when bring-up has stopped (R398). -/
def inTest : Instr → Bool
  | .isolateReset _ | .selectDie _ | .dieIdcode | .standalone _ | .loopback _ | .loopbackRunDone _ | .bist _ _ | .hbm1500 _
  | .dieBypass | .flrTestCtlWrite _ => true
  | _ => false

end Sys2Proof.Machine
end

