-- ==== Sys2Proof/Certificates/Slice0/Obligations.lean ====
section
/-! DEFINITION. The statements about the model, each a proposition whose docstring cites the rules of spec/ it formalises. -/

open Sys2Proof Sys2Proof.Machine

/-- One step takes the command at the front of the queue and runs it with the queue's rest. -/
def Obligations.StepRunsFrontCommand : Prop :=
  ∀ (c : Instr) (rest : List Instr) (d : Dev),
    step { pending := c :: rest, dev := d } = exec c { pending := rest, dev := d }

/-- Every command answers a next state, and none touches the queue of waiting commands. -/
def Obligations.EveryCommandCompletes : Prop :=
  ∀ (c : Instr) (s : State), ∃ t, exec c s = .next t ∧ t.pending = s.pending

/-- R66, R57, R61, R65: a function of major 0x01 whose word passes the decode checks writes, in each thread of the effective mask, the
function's value on that thread's sources to v[VD] (a pair where the type is wide), goes on to the next word, and changes nothing else but
the count of saturated roundings: no other register, thread, core or memory. R68: a compare writes p[PD], and a predicate combination writes
it from p[VS1] and p[VS2], in the threads of the effective mask only; a write to p7 is ignored. Nothing else changes but the program
counter. -/
def Obligations.VectorResult : Prop :=
  (∀ row ∈ vectorRows, ∀ (s : State) (w : Who) (o : VOp) (c : Core) (r : Run) (g : Grp),
     s.Issues w c r g → thrIsLead w.thr = false → row.shape.bad r.hdr.vregs true o = false →
     thrDrain r w.thr (vopRegs row.shape true o) = none →
     (VTy.ofCode o.ty = .f64 → g.eff o.pr = 0 ∨ r.walk = false) →
     ∃ g', exec (row.instr w o) s = .next (s.withThr w c r g') ∧ g'.pc = g.pc + 1
       ∧ (∀ t < 64, g'.operand (VTy.ofCode o.ty).wide o.vd.toNat t =
           if (g.eff o.pr).getLsbD t then
             (let x := (row.fn (VTy.ofCode o.ty) ((g.predReg o.pd.toNat).getLsbD t)
                 (g.operand (VTy.ofCode o.ty).wide o.vs1.toNat t) (g.src2 (VTy.ofCode o.ty) o t)
                 (g.operand (VTy.ofCode o.ty).wide o.vs3.toNat t)).val
              if (VTy.ofCode o.ty).wide then x else (x.setWidth 32).setWidth 64)
           else g.operand (VTy.ofCode o.ty).wide o.vd.toNat t)
       ∧ (∀ n t, n ≠ o.vd.toNat → ((VTy.ofCode o.ty).wide = true → n ≠ o.vd.toNat + 1) → g'.vreg n t = g.vreg n t)
       ∧ { g' with v := g.v, pc := g.pc, stats := g.stats } = g)
  ∧ ((∀ row ∈ compareRows, ∀ (s : State) (w : Who) (o : VOp) (c : Core) (r : Run) (g : Grp),
       s.Issues w c r g → thrIsLead w.thr = false →
       compareShape.bad r.hdr.vregs false o = false →
       thrDrain r w.thr (vopRegs compareShape false o) = none → (VTy.ofCode o.ty = .f64 → g.eff o.pr = 0 ∨ r.walk = false) →
       ∃ g', exec (row.1 w o) s = .next (s.withThr w c r g') ∧ g'.pc = g.pc + 1 ∧ { g' with p := g.p, pc := g.pc } = g
         ∧ (∀ n, n ≠ o.pd.toNat → g'.predReg n = g.predReg n)
         ∧ (∀ t < 64, (g'.predReg o.pd.toNat).getLsbD t =
             if o.pd ≠ 7 ∧ (g.eff o.pr).getLsbD t = true then
               row.2.holds (VTy.ofCode o.ty) (g.operand (VTy.ofCode o.ty).wide o.vs1.toNat t) (g.src2 (VTy.ofCode o.ty) o t)
             else (g.predReg o.pd.toNat).getLsbD t))
     ∧ (∀ row ∈ predicateRows, ∀ (s : State) (w : Who) (o : VOp) (c : Core) (r : Run) (g : Grp),
       s.Issues w c r g → thrIsLead w.thr = false →
       ∃ g', exec (row.1 w o) s = .next (s.withThr w c r g') ∧ g'.pc = g.pc + 1 ∧ { g' with p := g.p, pc := g.pc } = g
         ∧ (∀ n, n ≠ o.pd.toNat → g'.predReg n = g.predReg n)
         ∧ (∀ t < 64, (g'.predReg o.pd.toNat).getLsbD t =
             if o.pd ≠ 7 ∧ (g.eff o.pr).getLsbD t = true then
               row.2 ((g.predReg (o.vs1.toNat % 8)).getLsbD t) ((g.predReg (o.vs2.toNat % 8)).getLsbD t)
             else (g.predReg o.pd.toNat).getLsbD t)))

/-- R66, R67: the integer functions of major 0x01 on 32-bit and 64-bit elements: sums, differences and products modulo the width, the
high half of the full product, division and remainder towards zero; by 0 the
quotient is all ones (-1 where signed) and the remainder the dividend. -/
def Obligations.IntegerFunctionValues : Prop :=
  (∀ a b c : W64,
      (vAdd .u64 a b).val.toNat = (a.toNat + b.toNat) % 2 ^ 64 ∧ (vSub .u64 a b).val.toNat = (2 ^ 64 + a.toNat - b.toNat) % 2 ^ 64
      ∧ (vMul .u64 a b).val.toNat = a.toNat * b.toNat % 2 ^ 64
      ∧ (vFma .u64 a b c).val.toNat = (a.toNat * b.toNat + c.toNat) % 2 ^ 64
      ∧ (vMulhi .u64 a b).val.toNat = a.toNat * b.toNat / 2 ^ 64
      ∧ (vDiv .u64 a b).val.toNat = (if b = 0 then 2 ^ 64 - 1 else a.toNat / b.toNat)
      ∧ (vRem .u64 a b).val.toNat = (if b = 0 then a.toNat else a.toNat % b.toNat)
      ∧ (vMinMax .u64 false a b).val.toNat = min a.toNat b.toNat ∧ (vMinMax .u64 true a b).val.toNat = max a.toNat b.toNat)
  ∧ (∀ a b : W64,
      (vAdd .u32 a b).val.toNat = (a.toNat + b.toNat) % 2 ^ 32 ∧ (vMul .u32 a b).val.toNat = a.toNat * b.toNat % 2 ^ 32
      ∧ (vMulhi .u32 a b).val.toNat = (a.toNat % 2 ^ 32) * (b.toNat % 2 ^ 32) / 2 ^ 32
      ∧ (vShl .u32 a b).val.toNat = a.toNat * 2 ^ (b.toNat % 32) % 2 ^ 32
      ∧ (vShr .u32 a b).val.toNat = a.toNat % 2 ^ 32 / 2 ^ (b.toNat % 32))
  ∧ (∀ a b : BitVec 32, b ≠ 0 →
      ((vDiv .i32 (a.setWidth 64) (b.setWidth 64)).val.setWidth 32 : BitVec 32) = BitVec.ofInt 32 (a.toInt.tdiv b.toInt)
      ∧ ((vRem .i32 (a.setWidth 64) (b.setWidth 64)).val.setWidth 32 : BitVec 32) = BitVec.ofInt 32 (a.toInt.tmod b.toInt))
  ∧ (∀ a : BitVec 32,
      ((vDiv .i32 (a.setWidth 64) 0).val.setWidth 32 : BitVec 32).toInt = -1
      ∧ ((vRem .i32 (a.setWidth 64) 0).val.setWidth 32 : BitVec 32) = a)

/-- R120, R124 to R126, R68, R72: rounding a value that a format holds gives its code back, and a finite value never rounds to an infinity.
MIN and MAX, in vector, reduction and collective form, give the other operand where one is a NaN and the canonical NaN where both are, order
-0 below +0, and otherwise give one of the operands that no operand passes; the atomic MIN and MAX are of integers. ONLMAX gives the canonical
NaN twice where m or x is a NaN. A compare with a NaN operand yields 0, except NE. -/
def Obligations.FloatingPointValues : Prop :=
  (∀ f ∈ [fpF32, fpF64, fpBf16, fpF16, fpE4m3, fpE5m2, fpE3m2, fpE2m3, fpE2m1],
     (∀ x < 2 ^ f.width, (Fp.decode f x).isNan = false → Fp.round f (Fp.decode f x) = { bits := x, sat := false })
     ∧ (∀ neg m e, (Fp.round f (.fin neg m e)).bits % f.signBit ≤ f.maxBits))
  ∧ (∀ f ∈ [fpF32, fpF64, fpBf16, fpF16], ∀ (isMax : Bool) (x y : Nat),
     let a := Fp.decode f x
     let b := Fp.decode f y
     let z := f.minMax isMax x y
     (a.isNan = true → b.isNan = true → z = f.nanBits) ∧ (a.isNan = true → b.isNan = false → z = y)
     ∧ (a.isNan = false → b.isNan = true → z = x)
     ∧ (a.isNan = false → b.isNan = false → (z = x ∨ z = y)
         ∧ (if isMax then Fp.lt true (Fp.decode f z) a = false ∧ Fp.lt true (Fp.decode f z) b = false
            else Fp.lt true a (Fp.decode f z) = false ∧ Fp.lt true b (Fp.decode f z) = false))
     ∧ f.minMax false f.signBit 0 = f.signBit ∧ f.minMax false 0 f.signBit = f.signBit
     ∧ f.minMax true f.signBit 0 = 0 ∧ f.minMax true 0 f.signBit = 0)
  ∧ (∀ (isMax : Bool) (a b : W64),
     (vMinMax .f32 isMax a b).val.toNat = fpF32.minMax isMax (a.toNat % 2 ^ 32) (b.toNat % 2 ^ 32)
     ∧ (vMinMax .f64 isMax a b).val.toNat = fpF64.minMax isMax a.toNat b.toNat
     ∧ (∀ row ∈ [(VTy.f16x2, fpF16), (VTy.bf16x2, fpBf16)], ∀ i < 2,
         natBitsAt (vMinMax row.1 isMax a b).val.toNat (16 * i) 16
           = row.2.minMax isMax (natBitsAt a.toNat (16 * i) 16) (natBitsAt b.toNat (16 * i) 16))
     ∧ (∀ ty f x y, isIntType ty = false → collCombine (if isMax then 3 else 2) ty f x y = f.minMax isMax x y))
  ∧ (∀ m x : Nat, (Fp.decode fpF32 m).isNan = true ∨ (Fp.decode fpF32 x).isNan = true → onlmaxVal m x = (fpF32.nanBits, fpF32.nanBits))
  ∧ (∀ (c : Cmp) (a b : W64),
     ((Fp.decode fpF32 (a.toNat % 2 ^ 32)).isNan = true ∨ (Fp.decode fpF32 (b.toNat % 2 ^ 32)).isNan = true →
       c.holds .f32 a b = decide (c = .ne))
     ∧ ((Fp.decode fpF64 a.toNat).isNan = true ∨ (Fp.decode fpF64 b.toNat).isNan = true → c.holds .f64 a b = decide (c = .ne)))

/-- R70: an exchange gives each thread of the effective mask the first source of the thread that the function names, whether or not that
thread is active; a reduction gives every thread of the effective mask the tree's value over the effective mask's
threads, a NaN in its canonical form (R125; that this holds for the NaN of a lone thread is the model's reading, log 113). R70: the tree of
RED.ADD on 32-bit integers gives the sum of the present values modulo 2^32, and of RED.MAX on U32 their maximum, whichever threads are
absent. -/
def Obligations.ExchangeAndReductionResult : Prop :=
  ((∀ row ∈ exchangeRows, ∀ (s : State) (w : Who) (o : VOp) (c : Core) (r : Run) (g : Grp),
     s.Issues w c r g → thrIsLead w.thr = false → exchangeShape.bad r.hdr.vregs true o = false →
     thrDrain r w.thr (vopRegs exchangeShape true o) = none → (VTy.ofCode o.ty = .f64 → g.eff o.pr = 0 ∨ r.walk = false) →
     ∃ g', exec (row.1 w o) s = .next (s.withThr w c r g') ∧ g'.pc = g.pc + 1 ∧ { g' with v := g.v, pc := g.pc } = g
       ∧ (∀ n t, n ≠ o.vd.toNat → ((VTy.ofCode o.ty).wide = true → n ≠ o.vd.toNat + 1) → g'.vreg n t = g.vreg n t)
       ∧ (∀ t < 64, g'.operand (VTy.ofCode o.ty).wide o.vd.toNat t =
           g.operand (VTy.ofCode o.ty).wide
             (if (g.eff o.pr).getLsbD t then o.vs1.toNat else o.vd.toNat)
             (if (g.eff o.pr).getLsbD t then row.2 t ((g.src2 (VTy.ofCode o.ty) o t).toNat % 2 ^ 32) else t)))
   ∧ (∀ row ∈ reductionRows, ∀ (s : State) (w : Who) (o : VOp) (c : Core) (r : Run) (g : Grp),
     s.Issues w c r g → thrIsLead w.thr = false → reductionShape.bad r.hdr.vregs true o = false →
     thrDrain r w.thr (vopRegs reductionShape true o) = none → (VTy.ofCode o.ty = .f64 → g.eff o.pr = 0 ∨ r.walk = false) →
     ∃ g', exec (row.1 w o) s = .next (s.withThr w c r g') ∧ g'.pc = g.pc + 1
       ∧ { g' with v := g.v, pc := g.pc, stats := g.stats } = g
       ∧ (∀ n t, n ≠ o.vd.toNat → ((VTy.ofCode o.ty).wide = true → n ≠ o.vd.toNat + 1) → g'.vreg n t = g.vreg n t)
       ∧ (∀ t < 64, g'.operand (VTy.ofCode o.ty).wide o.vd.toNat t =
           if (g.eff o.pr).getLsbD t then
             (let x := vCanon (VTy.ofCode o.ty) (((redTree (row.2 (VTy.ofCode o.ty)) 6 ((List.range 64).map fun i =>
                 if (g.eff o.pr).getLsbD i then some (g.operand (VTy.ofCode o.ty).wide o.vs1.toNat i) else none) 0).1).getD 0)
              if (VTy.ofCode o.ty).wide then x else (x.setWidth 32).setWidth 64)
           else g.operand (VTy.ofCode o.ty).wide o.vd.toNat t)))
  ∧ (∀ level : List (Option W64), level.length = 64 → (∀ x ∈ level, ∀ y, x = some y → y.toNat < 2 ^ 32) → (∃ x ∈ level, x ≠ none) →
       (((redTree (vAdd .u32) 6 level 0).1).map BitVec.toNat = some ((level.filterMap fun x => x.map BitVec.toNat).sum % 2 ^ 32))
       ∧ (((redTree (vMinMax .u32 true) 6 level 0).1).map BitVec.toNat = (level.filterMap fun x => x.map BitVec.toNat).max?))

/-- R69, R71, R137: VCVT writes one converted element and keeps the other bits of a narrow destination; TID writes the thread index;
RNG.DRAW writes the Shuffle value of the group's key, the thread and the draw counter, and advances the counter. -/
def Obligations.ConversionIndexAndDrawResult : Prop :=
  (∀ (s : State) (w : Who) (o : CvtOp) (c : Core) (r : Run) (g : Grp),
    s.Issues w c r g → thrIsLead w.thr = false → cvtSideBad r.hdr.vregs o.sfmt.toNat o.ssel.toNat o.vs1.toNat = false →
    cvtSideBad r.hdr.vregs o.dfmt.toNat o.dsel.toNat o.vd.toNat = false → thrDrain r w.thr (cvtRegs o) = none →
    (r.walk = true → g.eff o.pr = 0 ∨ (cvtUnavailable o.sfmt.toNat = false ∧ cvtUnavailable o.dfmt.toNat = false)) →
    ∃ g', exec (.vcvt w o) s = .next (s.withThr w c r g') ∧ g'.pc = g.pc + 1
      ∧ { g' with v := g.v, pc := g.pc, stats := g.stats } = g
      ∧ (∀ t < 64, (g.eff o.pr).getLsbD t = false → ∀ n, g'.vreg n t = g.vreg n t)
      ∧ (∀ t < 64, (g.eff o.pr).getLsbD t = true →
          let wide := decide (cvtWidth o.dfmt.toNat = 64)
          let x := (g'.operand wide o.vd.toNat t).toNat
          let lo := cvtShift o.dfmt.toNat o.dsel.toNat
          natBitsAt x lo (cvtWidth o.dfmt.toNat) =
            (cvtElem o.sfmt.toNat o.dfmt.toNat
              (natBitsAt (g.operand (cvtWidth o.sfmt.toNat = 64) o.vs1.toNat t).toNat (cvtShift o.sfmt.toNat o.ssel.toNat)
                (cvtWidth o.sfmt.toNat))).bits % 2 ^ cvtWidth o.dfmt.toNat
          ∧ (∀ i < 32, i < lo ∨ lo + cvtWidth o.dfmt.toNat ≤ i → x.testBit i = (g.operand wide o.vd.toNat t).toNat.testBit i)))
  ∧ (∀ (s : State) (w : Who) (o : VOp) (c : Core) (r : Run) (g : Grp),
    s.Issues w c r g → thrIsLead w.thr = false → o.vd.toNat < r.hdr.vregs → thrDrain r w.thr [o.vd.toNat] = none →
    ∃ g', exec (.tid w o) s = .next (s.withThr w c r g') ∧ g'.pc = g.pc + 1 ∧ { g' with v := g.v, pc := g.pc } = g
      ∧ (∀ n t, n ≠ o.vd.toNat → g'.vreg n t = g.vreg n t)
      ∧ (∀ t < 64, (g'.vreg o.vd.toNat t).toNat = if (g.eff o.pr).getLsbD t then t else (g.vreg o.vd.toNat t).toNat))
  ∧ (∀ (s : State) (w : Who) (o : VOp) (c : Core) (r : Run) (g : Grp),
    s.Issues w c r g → thrIsLead w.thr = false → regBad r.hdr.vregs true o.vd.toNat = false → predNever o.pr = false →
    thrDrain r w.thr [o.vd.toNat, o.vd.toNat + 1] = none →
    ∃ g', exec (.rngDraw w o) s = .next (s.withThr w c r g') ∧ g'.pc = g.pc + 1
      ∧ { g' with v := g.v, pc := g.pc, draws := g.draws } = g ∧ g'.draws = g.draws + 1
      ∧ (∀ n t, n ≠ o.vd.toNat → n ≠ o.vd.toNat + 1 → g'.vreg n t = g.vreg n t)
      ∧ (∀ t < 64, g'.operand true o.vd.toNat t =
          if (g.eff o.pr).getLsbD t then shuffleOut g.key t g.draws else g.operand true o.vd.toNat t))

/-- R72, R135: ONLMAX writes the factor to v[VD] and the new maximum back to v[VS1], RESCL writes the fused product and sum, each in the
threads of the effective mask. R73, R132, R133: a weight update writes the updated weight, or both halves of it, to v[VD] and with MOM the
momenta to v[VS3], a pair for BF16X2, in the threads of the effective mask; nothing else of the thread changes but its random fields, its
monitor slot and its counts. WUPD.RN takes no random field. -/
def Obligations.WeightsAndOnlineResult : Prop :=
  ((∀ (s : State) (w : Who) (o : VOp) (c : Core) (r : Run) (g : Grp),
     s.Issues w c r g → thrIsLead w.thr = false → onlineBad r o = false →
     thrDrain r w.thr (vopRegs onlineShape true o) = none →
     ∃ g', exec (.onlmax w o) s = .next (s.withThr w c r g') ∧ g'.pc = g.pc + 1 ∧ { g' with v := g.v, pc := g.pc } = g
       ∧ (∀ n t, n ≠ o.vd.toNat → n ≠ o.vs1.toNat → g'.vreg n t = g.vreg n t)
       ∧ (∀ t < 64, (g.eff o.pr).getLsbD t = false → ∀ n, g'.vreg n t = g.vreg n t)
       ∧ (∀ t < 64, (g.eff o.pr).getLsbD t = true →
           let x := onlmaxVal (g.vreg o.vs1.toNat t).toNat ((g.src2 .f32 o t).toNat % 2 ^ 32)
           (o.vd ≠ o.vs1 → g'.vreg o.vd.toNat t = BitVec.ofNat 32 x.1) ∧ g'.vreg o.vs1.toNat t = BitVec.ofNat 32 x.2))
   ∧ (∀ (s : State) (w : Who) (o : VOp) (c : Core) (r : Run) (g : Grp),
     s.Issues w c r g → thrIsLead w.thr = false → onlineBad r o = false → thrDrain r w.thr (vopRegs onlineShape true o) = none →
     ∃ g', exec (.rescl w o) s = .next (s.withThr w c r g') ∧ g'.pc = g.pc + 1
       ∧ { g' with v := g.v, pc := g.pc, stats := g.stats } = g
       ∧ (∀ n t, n ≠ o.vd.toNat → g'.vreg n t = g.vreg n t)
       ∧ (∀ t < 64, g'.vreg o.vd.toNat t =
           if (g.eff o.pr).getLsbD t then
             BitVec.ofNat 32 (fpFma fpF32 (g.vreg o.vd.toNat t).toNat (g.vreg o.vs1.toNat t).toNat
               ((g.src2 .f32 o t).toNat % 2 ^ 32)).bits
           else g.vreg o.vd.toNat t)))
  ∧ (∀ row ∈ weightUpdateRows, ∀ (s : State) (w : Who) (o : VOp) (c : Core) (r : Run) (g : Grp),
       s.Issues w c r g → thrIsLead w.thr = false → wupdBad r.hdr.vregs o = false → thrDrain r w.thr (wupdRegs o) = none →
       predNever o.pr = false →
       let two := decide (VTy.ofCode o.ty = .bf16x2)
       ∃ g', exec (row.1 w o) s = .next (s.withThr w c r g') ∧ g'.pc = g.pc + 1
         ∧ (row.2 = 0 → g'.draws = g.draws ∧ g'.fieldPos = g.fieldPos)
         ∧ { g' with v := g.v, pc := g.pc, draws := g.draws, fieldWidth := g.fieldWidth, fieldPos := g.fieldPos, drawBuf := g.drawBuf,
                     stats := g.stats, monitor := g.monitor } = g
         ∧ (∀ n t, n ∉ o.vd.toNat :: (if wupdMom o then (if two then [o.vs3.toNat, o.vs3.toNat + 1] else [o.vs3.toNat]) else []) →
             g'.vreg n t = g.vreg n t)
         ∧ (∀ t < 64, (g.eff o.pr).getLsbD t = false → ∀ n, g'.vreg n t = g.vreg n t)
         ∧ (∀ t < 64, (g.eff o.pr).getLsbD t = true →
             let f := g.takeFields row.2 (if two then 2 else 1)
             let us := f.1.wupdThread o row.2 f.2 t
             ((wupdMom o = true → o.vd ≠ o.vs3 ∧ (two = true → o.vd.toNat ≠ o.vs3.toNat + 1)) →
               g'.vreg o.vd.toNat t = BitVec.ofNat 32 (wupdWord us))
             ∧ (wupdMom o = true → g'.vreg o.vs3.toNat t = BitVec.ofNat 32 ((us[0]?.map (·.momentum)).getD 0)
                 ∧ (two = true → g'.vreg (o.vs3.toNat + 1) t = BitVec.ofNat 32 ((us[1]?.map (·.momentum)).getD 0)))))

/-- R74, R57: a function of major 0x10 writes u[UD] once when the effective mask is not empty, in follow groups and lead threads alike;
UMOVI.LO writes the immediate extended with zeroes, UMOVI.HI the immediate as the upper half. Nothing else changes but the program counter. R74, R57, R61: UCMP writes p[PD] in every active
thread when the effective mask is not empty; p7 is never written. R75: a UREAD writes u[UD] with the value its function names, modulo 2^64,
when the effective mask is not empty. -/
def Obligations.UniformResult : Prop :=
  ((∀ row ∈ uniformRows, ∀ (s : State) (w : Who) (o : UOp) (c : Core) (r : Run) (g : Grp), s.Issues w c r g →
     exec (row.1 w o) s = .next (s.withThr w c r
       ((if g.eff o.pr = 0 then g else g.setUreg o.ud.toNat (row.2 (g.ureg o.us1.toNat) (g.usrc2 o))).step)))
   ∧ (∀ (s : State) (w : Who) (o : UmoviOp) (c : Core) (r : Run) (g : Grp), s.Issues w c r g →
     (∃ x : W64, x.toNat = o.imm32.toNat ∧ exec (.umoviLo w o) s =
       .next (s.withThr w c r ((if g.eff o.pr = 0 then g else g.setUreg o.ud.toNat x).step)))
     ∧ (∃ x : W64, x.toNat = o.imm32.toNat * 2 ^ 32 + (g.ureg o.ud.toNat).toNat % 2 ^ 32 ∧ exec (.umoviHi w o) s =
       .next (s.withThr w c r ((if g.eff o.pr = 0 then g else g.setUreg o.ud.toNat x).step)))))
  ∧ (∀ row ∈ uniformCompareRows, ∀ (s : State) (w : Who) (o : UOp) (c : Core) (r : Run) (g : Grp), s.Issues w c r g →
       ∃ g', exec (row.1 w o) s = .next (s.withThr w c r g') ∧ g'.pc = g.pc + 1 ∧ { g' with p := g.p, pc := g.pc } = g
         ∧ (∀ n, n ≠ o.pd.toNat → g'.predReg n = g.predReg n)
         ∧ (∀ t < 64, (g'.predReg o.pd.toNat).getLsbD t = true ↔
             if o.pd ≠ 7 ∧ g.eff o.pr ≠ 0 ∧ g.active.getLsbD t = true then row.2 (g.ureg o.us1.toNat) (g.usrc2 o)
             else (g.predReg o.pd.toNat).getLsbD t = true))
  ∧ (∀ (s : State) (w : Who) (o : UOp) (c : Core) (r : Run) (g : Grp), s.Issues w c r g → ∀ row ∈ uniformReadRows s w o,
       exec (row.1 w o) s = .next (s.withThr w c r
         ((if g.eff o.pr = 0 then g else g.setUreg o.ud.toNat (BitVec.ofNat 64 (row.2 c r g))).step)))

/-- R58, R59, R60, R91: a word outside the code region, a word whose decode checks fail, in a lead thread a vector, matrix, load, SPLIT, JOIN or
BAR.UNIT word, and in a follow group an RFILL end the command with ILLEGAL_INSTRUCTION, whatever the predicate; the thread issues nothing further. -/
def Obligations.IllegalWordsEndTheCommand : Prop :=
  ∀ (s : State) (w : Who) (c : Core) (r : Run) (g : Grp), s.dev.halted = false → s.dev.core w.core.val = c → c.run = some r →
    r.thr w.thr = some g → c.stopped = false → s.dev.mayIssue w r = true → g.sched = .active →
    let ended := Host.Outcome.next (φ := Fault) (ρ := Refusal)
      (s.withDev ((s.dev.putThr w c r { g with sched := .pendingWait .error }).raise r.q r.slot 0x0404))
    (∀ row ∈ vectorRows, ∀ o, thrIsLead w.thr = true ∨ r.hdr.inCode g.pc = false ∨ row.shape.bad r.hdr.vregs true o = true →
      exec (row.instr w o) s = ended)
    ∧ (∀ row ∈ compareRows, ∀ o, thrIsLead w.thr = true ∨ r.hdr.inCode g.pc = false
        ∨ compareShape.bad r.hdr.vregs false o = true → exec (row.1 w o) s = ended)
    ∧ (∀ row ∈ uniformRows, ∀ o, r.hdr.inCode g.pc = false → exec (row.1 w o) s = ended)
    ∧ (∀ o, thrIsLead w.thr = true ∨ r.hdr.inCode g.pc = false ∨ memBad 0 o r = true →
        exec (.ld w o) s = ended ∧ exec (.lds w o) s = ended)
    ∧ (∀ o, thrIsLead w.thr = false ∨ r.hdr.rings.length ≤ o.h.toNat → exec (.rfill w o) s = ended)
    ∧ (∀ o, thrIsLead w.thr = true → exec (.split w o) s = ended ∧ exec (.join w o) s = ended ∧ exec (.barUnit w o) s = ended)
    ∧ (∀ o, thrIsLead w.thr = true → exec (.mma w o) s = ended ∧ exec (.wload w o) s = ended ∧ exec (.mdrain w o) s = ended)

/-- R82, R83, R85, R86, R102, R105: in a group whose effective mask is its live mask, a WLOAD of an array that is not bound to another group
takes, with the matrix unit free, the tile from scratch on its way to the buffer and holds a free array; an MMA that opens a chain on one array takes a bank and streams
its 32 rows into it, and adds 1,024 times the array's width to the context's ARRAY_MACS; an MDRAIN ends the group's own chain, releases the
array and starts the bank's drain. Each goes on to the next word. In general an MMA streams its rows, from registers or gathered, into the
chains of every array of AMASK. R86, R57: a matrix instruction with an empty effective mask only goes on; one whose effective mask is
neither empty nor the live mask ends the command with MATRIX_DIVERGENT. -/
def Obligations.MatrixResult : Prop :=
  ((∀ (s : State) (w : Who) (o : MOp) (c : Core) (r : Run) (g : Grp) (i : Fin 64) (a : Nat) (x : ArrayRun),
     s.Issues w c r g → w.thr = .group i → g.eff o.pr = g.live → g.live ≠ 0 → amaskArrays o.amask = [a] → r.arrays[a]? = some x →
     r.mtxFree i.val = true → r.arrayBlocked a i.val = false →
     (∀ off, mmaFmtOk o.fmt.toNat = true → (r.walk = true → mmaUnavailable o.fmt.toNat = false) →
       natBitsAt (g.ureg o.ua.toNat).toNat 0 20 = off → off % 64 = 0 → off + tileBytes o.fmt.toNat ≤ c.scratchSize r →
       r.poisoned off (tileBytes o.fmt.toNat) = false →
       exec (.wload w o) s = .next (s.withThr w c (r.setArray a
         { (x.setBuf o.wb { x.buf o.wb with owner := some i.val, fmt := o.fmt.toNat }) with
           binding := if x.binding = .free then .held i.val else x.binding
           ops := x.ops ++ [.load o.wb (memRead r.scratch off (tileBytes o.fmt.toNat))] }) g.step))
     ∧ (∀ b rows, mmaBad r o = false → (r.walk = true → mmaUnavailable o.fmt.toNat = false) → thrDrain r w.thr (mmaRegs o) = none →
       o.init = 1 → o.gth = false → rows = g.actRows o.fmt.toNat o.va.toNat → x.owner ≠ some i.val → x.freeBank = some b →
       (x.buf o.wb).owner = some i.val → (x.buf o.wb).fmt = o.fmt.toNat →
       exec (.mma w o) s = .next (s.withDev ((s.dev.countMacs r.ctx [(c.arrayWidths[a]?).getD 32]).putThr w c (({ r with mtx := none } : Run).setArray a
         { (x.setBank b { st := .opened, acc := [] }) with
           binding := .chain i.val b
           ops := x.ops ++ [.mac b o.wb o.fmt.toNat rows] }) g.step)))
     ∧ (∀ b, x.binding = .chain i.val b → o.vd.toNat % 16 = 0 → o.vd.toNat + (if o.dfmt then 8 else 16) ≤ r.hdr.vregs →
       thrDrain r w.thr ((List.range (if o.dfmt then 8 else 16)).map (o.vd.toNat + ·)) = none →
       exec (.mdrain w o) s = .next (s.withThr w c (r.setArray a
         { (x.setBank b { x.bank b with
             st := .draining { g := i.val, vd := o.vd.toNat, bf16 := o.dfmt, stat := o.stat, width := (c.arrayWidths[a]?).getD 32 } })
           with binding := .free }) g.step)))
   ∧ (∀ (s : State) (w : Who) (o : MOp) (c : Core) (r : Run) (g : Grp) (i : Fin 64) (rows : List (List Nat × Nat)),
     s.Issues w c r g → w.thr = .group i → g.eff o.pr = g.live → g.live ≠ 0 → mmaBad r o = false →
     (r.walk = true → mmaUnavailable o.fmt.toNat = false) → thrDrain r w.thr (mmaRegs o) = none →
     r.mtxFree i.val = true → (o.init ≠ 0 → ∀ a ∈ amaskArrays o.amask, r.arrayBlocked a i.val = false) → mmaArrayBad r o i.val = false →
     mmaNoBank r o i.val = false →
     (if o.gth then gatherRows c r (g.ureg (o.va.toNat % 64)) o.fmt.toNat else .ok (g.actRows o.fmt.toNat o.va.toNat)) = .ok rows →
     exec (.mma w o) s = .next (s.withDev ((s.dev.countMacs r.ctx ((amaskArrays o.amask).map fun a => (c.arrayWidths[a]?).getD 32)).putThr w c
         ((List.range (amaskArrays o.amask).length).foldl
           (fun r k => r.mmaArray c g i.val o rows k ((amaskArrays o.amask).getD k 0)) { r with mtx := none }) g.step))))
  ∧ (∀ (s : State) (w : Who) (o : MOp) (c : Core) (r : Run) (g : Grp), s.Issues w c r g → thrIsLead w.thr = false →
       let go := Host.Outcome.next (φ := Fault) (ρ := Refusal) (s.advanced w c r g)
       let diverged := Host.Outcome.next (φ := Fault) (ρ := Refusal)
         (s.withDev ((s.dev.putThr w c r { g with sched := .pendingWait .error }).raise r.q r.slot 0x0401))
       (mmaBad r o = false → thrDrain r w.thr (mmaRegs o) = none →
         (g.eff o.pr = 0 → exec (.mma w o) s = go) ∧ (g.eff o.pr ≠ 0 → g.eff o.pr ≠ g.live → exec (.mma w o) s = diverged))
       ∧ (mmaFmtOk o.fmt.toNat = true → amaskBad r o.amask = false → amaskOne o.amask = true →
         (g.eff o.pr = 0 → exec (.wload w o) s = go) ∧ (g.eff o.pr ≠ 0 → g.eff o.pr ≠ g.live → exec (.wload w o) s = diverged))
       ∧ (amaskBad r o.amask = false → amaskOne o.amask = true → o.vd.toNat % 16 = 0 → o.vd.toNat + (if o.dfmt then 8 else 16) ≤ r.hdr.vregs →
         thrDrain r w.thr ((List.range (if o.dfmt then 8 else 16)).map (o.vd.toNat + ·)) = none →
         (g.eff o.pr = 0 → exec (.mdrain w o) s = go) ∧ (g.eff o.pr ≠ 0 → g.eff o.pr ≠ g.live → exec (.mdrain w o) s = diverged)))

/-- R99, R105, R109, R114, R115: the events of an array. The earliest load's tile is in its buffer; the earliest stream's products are
in its chain; a drain with no stream of its bank left writes its group's registers and frees the bank; a released array goes to the
group that began waiting for it first, which then waits only for the other arrays it named. Nothing outside the core changes. -/
def Obligations.ArrayEventResult : Prop :=
  ∀ (s : State) (core : Fin 768) (array : Fin 4) (c : Core) (r : Run) (x : ArrayRun), s.RunsOn core.val c r →
    r.arrays[array.val]? = some x →
    (∀ b tile rest, x.ops = .load b tile :: rest →
      exec (.weightRowsWritten core array) s = .next (s.withRun core.val c
        (r.setArray array.val { (x.setBuf b { x.buf b with tile := tile }) with ops := rest })))
    ∧ (∀ k b fmt rows rest, x.ops = .mac k b fmt rows :: rest →
      exec (.mmaProductsInChain core array) s = .next (s.withRun core.val c
        (r.setArray array.val
          { (x.setBank k ((x.bank k).applyMac fmt (x.buf b).tile rows ((c.arrayWidths[array.val]?).getD 32))) with ops := rest })))
    ∧ (∀ bank dr g, (x.bank bank).st = .draining dr → x.streaming bank = false → smapGet? r.groups dr.g = some g →
      exec (.drainComplete core array bank) s = .next (s.withRun core.val c
        { r.setArray array.val (x.setBank bank { st := .free, acc := [] }) with
          groups := smapPut r.groups dr.g ((g.writeDrain (x.bank bank) dr).countDrain (x.bank bank) dr) }))
    ∧ (∀ gi g as, x.binding = .free → earliest (fun g => g.awaitsArray array.val) r.groups = some (gi, g) → g.sched = .pendingWait (.array as) →
      let left := as.filter (· ≠ array.val)
      exec (.arrayHandover core array) s = .next (s.withRun core.val c
        { r.setArray array.val { x with binding := .held gi } with
          groups := smapPut r.groups gi { g with sched := .pendingWait (if left = [] then .resolved else .array left) } }))

/-- R28, R76, R77, R154, R156: a load whose threads' accesses pass the checks and are all translated and placed in memory or windows writes
the loaded values to v[VR] in the threads answered at once and goes on, noting for each access sent over Reel that its answer writes v[VR].
An acquire acts on the near cache when every access of it is answered; one with answers outstanding waits past the instruction for them. The
memory system's own state is what the accesses leave. -/
def Obligations.LoadResult : Prop :=
  ∀ row ∈ loadRows, ∀ (s : State) (w : Who) (o : MemOp) (c c' : Core) (r r' : Run) (g : Grp) (accs : List Acc1) (m : Made) (d1 d2 : Dev),
    s.Issues w c r g → thrIsLead w.thr = false → memBad row.2 o r = false → thrDrain r w.thr (memRegs o ++ memVx o) = none →
    let eff := g.todo.getD (g.eff o.pr)
    let n := sizeBytes o.size
    let as := (threadsOf eff).map fun t => (t, (g.addr o n t).toNat)
    eff ≠ 0 → (∀ a ∈ as, a.2 < 2 ^ 57 ∧ a.2 % n = 0) →
    s.dev.reach w r n .read as = (accs, none, d1) →
    d1.loads w r (row.2 = 0) n o.vr.toNat (o.fn.getLsbD 0) accs Made.start = (m, d2) → m.halt = none →
    let acquires : Prop := row.2 = 2 ∧ (awayAny accs = true ∨ scopeNear o = true)
    let d3 := if acquires ∧ m.remote = [] then d2.acquireNear w.core.val else d2
    let g' := { g.setLoaded o.vr.toNat n (o.fn.getLsbD 0) m.vals with
      todo := none, pc := g.pc + 1, away := g.away ++ m.remote.map fun id => (id, memRegs o) }
    d3.core w.core.val = c' → c'.run = some r' →
    (acquires → m.remote ≠ [] → exec (row.1 w o) s = .next (s.withDev (d3.stall w c' r' g' (.acquire m.remote))))
    ∧ (¬(acquires ∧ m.remote ≠ []) → exec (row.1 w o) s = .next (s.withDev (d3.putThr w c' r' g')))

/-- R76, R77, R80, R153: a store whose threads' accesses pass the checks and are all translated and made goes on to the next word; a
release writes the near cache back first. ST and ZLINE go through a near cache that is not of size 0, ST.REL and ZLINE.S to the point
of coherence. -/
def Obligations.StoreResult : Prop :=
  ∀ row ∈ storeRows, ∀ (s : State) (w : Who) (o : MemOp) (c c' : Core) (r r' : Run) (g : Grp) (accs : List Acc1)
    (ls : List LineWrite) (m m' : Made) (d1 d3 d4 : Dev),
    s.Issues w c r g → thrIsLead w.thr = false → row.bad o r = false → thrDrain r w.thr (row.regs o ++ memVx o) = none →
    let eff := g.todo.getD (g.eff o.pr)
    let n := row.bytes o
    let as := (threadsOf eff).map fun t => (t, (g.addr o n t).toNat)
    eff ≠ 0 → s.dev.precheck r true n n (as.map (·.2)) = none →
    s.dev.reach w r n .write as = (accs, none, d1) →
    let away := awayAny accs
    d1.releaseWaits w row.release (if away then 7 else o.scope.toNat) = [] →
    let d2 := if row.release = true ∧ (away = true ∨ scopeNear o = true) then d1.cleanNear w.core.val else d1
    d2.stores w r (row.near && (d2.core w.core.val).nearUnits ≠ 0) n (row.val o g) accs [] Made.start = (ls, m, d3) → m.halt = none →
    d3.lineWrites w.core.val (r.rq w.core.val) row.update ls m = (m', d4) → m'.halt = none →
    d4.core w.core.val = c' → c'.run = some r' →
    exec (row.instr w o) s = .next (s.withDev (d4.putThr w c' r'
      { g.countElems (row.counts o ((threadsOf m'.done).map (row.val o g))) with todo := none, pc := g.pc + 1 }))

/-- R78, R146, R153: an atomic whose threads' accesses pass the checks and are all made in ascending thread order returns the old values
to v[VR], unless NORET is set, and goes on; SEM orders it as a release before and an acquire after, which waits for the answers of
threads whose atomics went over Reel (R154, R156). -/
def Obligations.AtomicResult : Prop :=
  ∀ row ∈ atomicRows, ∀ (s : State) (w : Who) (o : MemOp) (c c' : Core) (r r' : Run) (g : Grp) (accs : List Acc1) (m : Made)
    (d1 d3 : Dev),
    s.Issues w c r g → thrIsLead w.thr = false → o.fn.toNat % 16 = row.2 → atomBad o r false = false →
    thrDrain r w.thr ((if row.2 = 10 then memRegs o ++ (memRegs o).map (· + (memRegs o).length) else memRegs o) ++ memVx o) = none →
    let eff := g.todo.getD (g.eff o.pr)
    let n := sizeBytes o.size
    let words := if o.size = 3 then 2 else 1
    let as := (threadsOf eff).map fun t => (t, (g.addr o n t).toNat)
    eff ≠ 0 → s.dev.precheck r true n n (as.map (·.2)) = none →
    s.dev.reach w r n .atomic as = (accs, none, d1) →
    let away := awayAny accs
    d1.releaseWaits w (o.sem = 3 || o.sem = 4) (if away then 7 else o.scope.toNat) = [] →
    let d2 := if (o.sem = 3 ∨ o.sem = 4) ∧ (away = true ∨ scopeNear o = true) then d1.cleanNear w.core.val else d1
    d2.atomics w r row.2 (o.size = 3) (o.fn.getLsbD 4) o.vr.toNat (g.memVal o.vr.toNat n) (g.memVal (o.vr.toNat + words) n) accs
      Made.start = (m, d3) → m.halt = none →
    let acquires : Prop := (o.sem = 2 ∨ o.sem = 4) ∧ (away = true ∨ scopeNear o = true)
    let d4 := if acquires ∧ m.remote = [] then d3.acquireNear w.core.val else d3
    let g' := { (if o.fn.getLsbD 4 then g else g.setLoaded o.vr.toNat n false m.vals) with
      todo := none, pc := g.pc + 1, away := g.away ++ (if o.fn.getLsbD 4 then [] else m.remote.map fun id => (id, memRegs o)) }
    d4.core w.core.val = c' → c'.run = some r' →
    (acquires → m.remote ≠ [] → exec (row.1 w o) s = .next (s.withDev (d4.stall w c' r' g' (.acquire m.remote))))
    ∧ (¬(acquires ∧ m.remote ≠ []) → exec (row.1 w o) s = .next (s.withDev (d4.putThr w c' r' g')))

/-- R78, R177: an atomic at the point of coherence on an HBM line that is backed, good, held by no agent and not busy, with an entry of the
home and a token of the partition's budget for the requester: it answers the old word, memory holds the new word, and every other byte of memory, every core and every queue is
unchanged. R176: a masked write of such a line at its home replaces exactly the bytes that the mask selects; every other byte of memory is
unchanged, and so are every core, queue and register. -/
def Obligations.HomeMemoryResult : Prop :=
  (∀ (d : Dev) (rq : Rq) (pa aop v c : Nat) (wide : Bool) (new : Nat), d.PlainLine (pa / 64) → memWf d.mem = true →
     pa % (if wide then 8 else 4) = 0 → 0 < smapGet d.tempo.budgets (64 * d.home (64 * (pa / 64)) + rq.part) 0 →
     d.backsOff (d.home (64 * (pa / 64))) rq.num = false → d.entryFor (d.home (64 * (pa / 64))) rq.num = true →
     let n := if wide then 8 else 4
     v < 2 ^ (8 * n) → c < 2 ^ (8 * n) →
     let old := leNat (memRead d.mem pa n)
     atomNew aop (8 * n) old v c = some new →
     ∃ d', d.pocAtomic rq pa aop wide v c = some ((old, false), d') ∧ leNat (memRead d'.mem pa n) = new % 2 ^ (8 * n)
       ∧ (∀ a, a < pa ∨ pa + n ≤ a → memGet d'.mem a = memGet d.mem a) ∧ d'.cores = d.cores ∧ d'.queues = d.queues ∧ d'.regs = d.regs)
  ∧ (∀ (d : Dev) (rq : Rq) (n : Nat) (m : Mask) (x : Line), d.PlainLine n → memWf d.mem = true →
       0 < smapGet d.tempo.budgets (64 * d.home (64 * n) + rq.part) 0 →
       d.backsOff (d.home (64 * n)) rq.num = false → d.entryFor (d.home (64 * n)) rq.num = true →
       ∃ d', d.pocWrite rq n m x = some d'
         ∧ (∀ i < 64, memGet d'.mem (64 * n + i) =
             if m.getLsbD i then BitVec.ofNat 8 (x.toNat / 2 ^ (8 * i)) else memGet d.mem (64 * n + i))
         ∧ (∀ a, a < 64 * n ∨ 64 * n + 64 ≤ a → memGet d'.mem a = memGet d.mem a)
         ∧ d'.cores = d.cores ∧ d'.queues = d.queues ∧ d'.regs = d.regs ∧ memWf d'.mem = true)

/-- R76, R81, R91: an access with an address at or above 2^57 or not naturally aligned ends the command with RANGE_FAULT; a store whose
bytes lie outside the command's declared outputs ends it with WRITE_OUTSIDE_OUTPUTS. Memory is unchanged. -/
def Obligations.BadAddressesEndTheCommand : Prop :=
  ∀ (s : State) (w : Who) (o : MemOp) (c : Core) (r : Run) (g : Grp), s.Issues w c r g → thrIsLead w.thr = false →
    let eff := g.todo.getD (g.eff o.pr)
    let n := sizeBytes o.size
    let ended (code : Nat) := Host.Outcome.next (φ := Fault) (ρ := Refusal)
      (s.withDev ((s.dev.putThr w c r { g with sched := .pendingWait .error }).raise r.q r.slot code))
    eff ≠ 0 →
    (∀ row ∈ loadRows, memBad row.2 o r = false → thrDrain r w.thr (memRegs o ++ memVx o) = none →
      (∃ t ∈ threadsOf eff, 2 ^ 57 ≤ (g.addr o n t).toNat ∨ (g.addr o n t).toNat % n ≠ 0) → exec (row.1 w o) s = ended 0x0202)
    ∧ (memBad 0 o r = false → statBad o = false → thrDrain r w.thr (memRegs o ++ memVx o) = none →
      ((∃ t ∈ threadsOf eff, 2 ^ 57 ≤ (g.addr o n t).toNat ∨ (g.addr o n t).toNat % n ≠ 0) → exec (.st w o) s = ended 0x0202)
      ∧ ((∀ t ∈ threadsOf eff, (g.addr o n t).toNat < 2 ^ 57 ∧ (g.addr o n t).toNat % n = 0) →
        (∃ cm, s.dev.cmd? r.q r.slot = some cm ∧ ∃ t ∈ threadsOf eff, cm.declares (g.addr o n t).toNat n = false) →
        exec (.st w o) s = ended 0x0203))

/-- R78, R79: LDS reads and STS writes the scratch of the core that REMOTE and RANK name, the threads of STS and ATOMS in ascending
order; ATOMS works on the issuing core's own scratch and returns the old values unless NORET is set. Every access is aligned and below
S, and no memory changes. -/
def Obligations.ScratchAccessResult : Prop :=
  ∀ (s : State) (w : Who) (o : MemOp) (c : Core) (r : Run) (g : Grp), s.Issues w c r g → thrIsLead w.thr = false → g.eff o.pr ≠ 0 →
    let n := sizeBytes o.size
    let as := (threadsOf (g.eff o.pr)).map fun t => (t, (g.addr o n t).toNat)
    let fits (k : Nat) (ck : Core) (rk : Run) : Prop := s.dev.core k = ck ∧ ck.run = some rk
      ∧ ∀ a ∈ as, a.2 % n = 0 ∧ a.2 + n ≤ ck.scratchSize rk
    (∀ k ck rk, memBad 0 o r = false → remoteBad o r = false → thrDrain r w.thr (memRegs o ++ memVx o) = none →
      scratchCore w o r = k → fits k ck rk →
      ((∀ a ∈ as, rk.poisoned a.2 n = false) →
        exec (.lds w o) s = .next (s.withDev ((s.dev.setScratch k rk.scratch).putThrNow w (g.setLoaded o.vr.toNat n (o.scope.getLsbD 0)
            (as.map fun a => (a.1, leNat (memRead rk.scratch a.2 n)))).step)))
      ∧ exec (.sts w o) s = .next (s.withDev ((s.dev.setScratch k
          (as.foldl (fun m a => memWrite m a.2 (leBytes n (g.memVal o.vr.toNat n a.1))) rk.scratch)).putThrNow w g.step)))
    ∧ (atomBad o r true = false →
      thrDrain r w.thr ((if o.fn.toNat % 16 = 10 then memRegs o ++ (memRegs o).map (· + (memRegs o).length) else memRegs o) ++ memVx o)
        = none → fits w.core.val c r → (∀ a ∈ as, r.poisoned a.2 n = false) →
      ∃ vals m, as.foldl (fun (p : SMap Nat × Mem) a =>
          (smapPut p.1 a.1 (scratchAtomic (o.fn.toNat % 16) n g o.vr.toNat p.2 a).1,
           (scratchAtomic (o.fn.toNat % 16) n g o.vr.toNat p.2 a).2)) ([], r.scratch) = (vals, m)
        ∧ exec (.atoms w o) s = .next (s.withDev ((s.dev.setScratch w.core.val m).putThrNow w
            (if o.fn.getLsbD 4 then g else g.setLoaded o.vr.toNat n false vals).step)))

/-- R77, R80, R146, R152, R156: fences and cache operations. A fence with an effective mask that is not empty and no remote write to wait
for writes the near cache back as a release and acts on it as an acquire from S3 on; INV.NEAR and WB.NEAR act on the whole near cache
once, INV.NEAR.L and WB.NEAR.L on the lines the threads name, and a prefetch raises nothing. Each goes on to the next word. -/
def Obligations.FenceAndCacheResult : Prop :=
  ∀ (s : State) (w : Who) (o : MemOp) (c : Core) (r : Run) (g : Grp), s.Issues w c r g → thrIsLead w.thr = false →
    let k := w.core.val
    (∀ row ∈ fenceRows, o.sem = row.2 → g.eff o.pr ≠ 0 →
      s.dev.fenceWaits w g row.2 o.scope.toNat = [] →
      exec (row.1 w o) s = .next (s.withDev ((let d1 := if (row.2 = 3 ∨ row.2 = 4) ∧ 3 ≤ o.scope.toNat then s.dev.cleanNear k else s.dev
         let d2 := if (row.2 = 2 ∨ row.2 = 4) ∧ 3 ≤ o.scope.toNat then d1.acquireNear k else d1
         d2.putThrNow w g.step))))
    ∧ (o.sem = 0 → g.eff o.pr ≠ 0 →
      exec (.invNear w o) s = .next (s.withDev ((s.dev.invNear k).putThrNow w g.step))
      ∧ exec (.wbNear w o) s = .next (s.withDev ((s.dev.cleanNear k).putThrNow w g.step)))
    ∧ (copBad o r = false → thrDrain r w.thr (memVx o) = none →
      let as := (threadsOf (g.eff o.pr)).map fun t => (t, (g.addr o 64 t).toNat)
      exec (.pfNear w o) s = .next (s.withDev ((as.foldl (fun d a => d.prefetchLine k r true a) s.dev).putThrNow w g.step))
      ∧ exec (.pfS w o) s = .next (s.withDev ((as.foldl (fun d a => d.prefetchLine k r false a) s.dev).putThrNow w g.step))
      ∧ (g.todo = none → g.eff o.pr ≠ 0 → (∀ a ∈ as, a.2 < 2 ^ 57 ∧ a.2 % 64 = 0) → (∀ a ∈ as, ∀ x ∈ c.near, x.va ≠ a.2 / 64) →
        exec (.invNearL w o) s = .next (s.advanced w c r g) ∧ exec (.wbNearL w o) s = .next (s.advanced w c r g))
      ∧ (g.todo = none → g.eff o.pr ≠ 0 → (∀ a ∈ as, a.2 < 2 ^ 57 ∧ a.2 % 64 = 0) →
        (∃ t, exec (.invNearL w o) s = .next t ∧ t.thread w = some g.step
          ∧ ∀ a ∈ as, ∀ x ∈ (t.dev.core k).near, x.va ≠ a.2 / 64)
        ∧ (∃ t, exec (.wbNearL w o) s = .next t ∧ t.thread w = some g.step
          ∧ ∀ a ∈ as, ∀ x ∈ (t.dev.core k).near, x.va = a.2 / 64 → x.dirty = 0)))
    ∧ (o.sem = 0 → g.eff o.pr ≠ 0 →
      ((s.dev.invNear k).core k).near = [] ∧ ∀ x ∈ ((s.dev.cleanNear k).core k).near, x.dirty = 0)

/-- R57, R76, R146: with an empty effective mask a load, a store, an atomic, LDS, STS, a fence, INV.NEAR and WB.NEAR only go on to the
next word. -/
def Obligations.EmptyMaskOnlyAdvances : Prop :=
  ∀ (s : State) (w : Who) (o : MemOp) (c : Core) (r : Run) (g : Grp), s.Issues w c r g → thrIsLead w.thr = false → g.eff o.pr = 0 →
    g.todo = none →
    (∀ row ∈ loadRows, memBad row.2 o r = false → thrDrain r w.thr (memRegs o ++ memVx o) = none →
      exec (row.1 w o) s = .next (s.advanced w c r g))
    ∧ (∀ row ∈ storeRows, row.bad o r = false → thrDrain r w.thr (row.regs o ++ memVx o) = none →
      exec (row.instr w o) s = .next (s.advanced w c r g))
    ∧ (∀ row ∈ atomicRows, o.fn.toNat % 16 = row.2 → atomBad o r false = false →
      thrDrain r w.thr ((if row.2 = 10 then memRegs o ++ (memRegs o).map (· + (memRegs o).length) else memRegs o) ++ memVx o) = none →
      exec (row.1 w o) s = .next (s.advanced w c r g))
    ∧ (∀ row ∈ fenceRows, o.sem = row.2 → exec (row.1 w o) s = .next (s.advanced w c r g))
    ∧ (o.sem = 0 → exec (.invNear w o) s = .next (s.advanced w c r g) ∧ exec (.wbNear w o) s = .next (s.advanced w c r g))
    ∧ (memBad 0 o r = false → remoteBad o r = false → thrDrain r w.thr (memRegs o ++ memVx o) = none →
      exec (.lds w o) s = .next (s.advanced w c r g) ∧ exec (.sts w o) s = .next (s.advanced w c r g))

/-- R87, R34, R35, R59: a NOP only goes on. A branch goes to its target, in the code region, when its condition on the effective mask
holds, and on otherwise. SPLIT with both paths present pushes the entry and goes on with the threads that did not take the branch; JOIN
takes the pending path, or restores the saved mask and goes to the reconvergence address. CALL writes the return address and RET and BRX
go to the address in a uniform register. Nothing else changes. -/
def Obligations.ControlTransferResult : Prop :=
  ∀ (s : State) (w : Who) (o : COp) (c : Core) (r : Run) (g : Grp), s.Issues w c r g →
    let land (o : BitVec 24) : Int := (g.pc : Int) + o.toInt
    let lands (i : Int) : Prop := 0 ≤ i ∧ r.hdr.inCode i.toNat = true
    exec (.nop w o) s = .next (s.advanced w c r g)
    ∧ (g.eff o.pr = 0 → exec (.braAny w o) s = .next (s.advanced w c r g))
    ∧ (g.eff o.pr ≠ 0 → lands (land o.offa) → exec (.braAny w o) s = .next (s.withThr w c r { g with pc := (land o.offa).toNat }))
    ∧ (g.eff o.pr ≠ g.active → exec (.braAll w o) s = .next (s.advanced w c r g))
    ∧ (g.eff o.pr = g.active → lands (land o.offa) → exec (.braAll w o) s = .next (s.withThr w c r { g with pc := (land o.offa).toNat }))
    ∧ (g.eff o.pr ≠ 0 → lands (land o.offa) → exec (.call w o) s = .next (s.withThr w c r
        { g.setUreg (o.offb.toNat % 64) (BitVec.ofNat 64 (g.pc + 1)) with pc := (land o.offa).toNat }))
    ∧ (g.eff o.pr ≠ 0 → r.hdr.inCode (g.ureg (o.offb.toNat % 64)).toNat = true →
        exec (.ret w o) s = .next (s.withThr w c r { g with pc := (g.ureg (o.offb.toNat % 64)).toNat })
        ∧ exec (.brx w o) s = .next (s.withThr w c r { g with pc := (g.ureg (o.offb.toNat % 64)).toNat }))
    ∧ (g.eff o.pr = 0 → exec (.call w o) s = .next (s.advanced w c r g) ∧ exec (.ret w o) s = .next (s.advanced w c r g)
        ∧ exec (.brx w o) s = .next (s.advanced w c r g) ∧ exec (.exit w o) s = .next (s.advanced w c r g))
    ∧ (thrIsLead w.thr = false → g.eff o.pr = 0 →
        exec (.split w o) s = .next (s.advanced w c r g) ∧ exec (.join w o) s = .next (s.advanced w c r g))
    ∧ (thrIsLead w.thr = false → g.eff o.pr ≠ 0 → g.active &&& ~~~(g.eff o.pr) = 0 → lands (land o.offa) →
        exec (.split w o) s = .next (s.withThr w c r { g with pc := (land o.offa).toNat }))
    ∧ (thrIsLead w.thr = false → g.eff o.pr ≠ 0 → g.active &&& ~~~(g.eff o.pr) ≠ 0 → g.stack.length < r.hdr.maxDiverge →
        lands (land o.offa) → lands (land o.offb) →
        exec (.split w o) s = .next (s.withThr w c r { g with
          active := g.active &&& ~~~(g.eff o.pr)
          stack := { saved := g.active, reconv := (land o.offb).toNat, pendTarget := (land o.offa).toNat, pendMask := g.eff o.pr } :: g.stack
          pc := g.pc + 1 }))
    ∧ (∀ e rest, thrIsLead w.thr = false → g.eff o.pr ≠ 0 → g.stack = e :: rest → e.pendMask ≠ 0 → r.hdr.inCode e.pendTarget = true →
        exec (.join w o) s = .next (s.withThr w c r { g with
          active := e.pendMask &&& g.live, stack := { e with pendMask := 0 } :: rest, pc := e.pendTarget }))
    ∧ (∀ e rest, thrIsLead w.thr = false → g.eff o.pr ≠ 0 → g.stack = e :: rest → e.pendMask = 0 → r.hdr.inCode e.reconv = true →
        exec (.join w o) s = .next (s.withThr w c r { g with active := e.saved &&& g.live, stack := rest, pc := e.reconv }))

/-- R34, R59, R91: a SPLIT that would pass the kernel's divergence depth ends the command with RECONVERGENCE_OVERFLOW; a JOIN on an empty
stack and a branch out of the code region end it with ILLEGAL_INSTRUCTION. -/
def Obligations.ControlErrors : Prop :=
  ∀ (s : State) (w : Who) (o : COp) (c : Core) (r : Run) (g : Grp), s.Issues w c r g → g.eff o.pr ≠ 0 →
    let ended (code : Nat) := Host.Outcome.next (φ := Fault) (ρ := Refusal)
      (s.withDev ((s.dev.putThr w c r { g with sched := .pendingWait .error }).raise r.q r.slot code))
    (thrIsLead w.thr = false → g.active &&& ~~~(g.eff o.pr) ≠ 0 → r.hdr.maxDiverge ≤ g.stack.length →
      exec (.split w o) s = ended 0x0405)
    ∧ (thrIsLead w.thr = false → g.stack = [] → exec (.join w o) s = ended 0x0404)
    ∧ (((g.pc : Int) + o.offa.toInt < 0 ∨ r.hdr.inCode ((g.pc : Int) + o.offa.toInt).toNat = false) →
      exec (.braAny w o) s = ended 0x0404)
    ∧ (r.hdr.inCode (g.ureg (o.offb.toNat % 64)).toNat = false →
      exec (.ret w o) s = ended 0x0404 ∧ exec (.brx w o) s = ended 0x0404)

/-- R34, R88: EXIT takes the threads of the effective mask out of the live mask, the active mask and every mask on the stack. When live
threads remain active the group goes on to the next word, when none does it continues with the top stack entry, and when none is left
the group has exited. R42 to R45: a BAR.UNIT with an empty effective mask only goes on, one whose effective mask is neither empty nor the
live mask ends the command with BARRIER_DIVERGENT, and one by the whole group in a core troupe leaves it waiting past the instruction; the barrier's release makes every group of the troupe that waits at it ready. -/
def Obligations.ExitAndBarrierResult : Prop :=
  (∀ (s : State) (w : Who) (o : COp) (c : Core) (r : Run) (g : Grp), s.Issues w c r g → g.eff o.pr &&& g.live ≠ 0 →
     (g.active &&& ~~~(g.eff o.pr &&& g.live) ≠ 0 → g.live &&& ~~~(g.eff o.pr &&& g.live) ≠ 0 → r.hdr.inCode (g.pc + 1) = true →
       ∃ t g', exec (.exit w o) s = .next t ∧ t.thread w = some g'
         ∧ g'.live = g.live &&& ~~~(g.eff o.pr) ∧ g'.pc = g.pc + 1 ∧ g'.sched = .active
         ∧ g'.active = g.active &&& ~~~(g.eff o.pr &&& g.live) ∧ g'.v = g.v ∧ g'.u = g.u ∧ g'.p = g.p
         ∧ g'.stack = g.stack.map fun x =>
             { x with saved := x.saved &&& ~~~(g.eff o.pr &&& g.live), pendMask := x.pendMask &&& ~~~(g.eff o.pr &&& g.live) })
     ∧ (g.live &&& ~~~(g.eff o.pr &&& g.live) = 0 →
       ∃ t g', exec (.exit w o) s = .next t ∧ t.thread w = some g' ∧ g'.live = 0 ∧ g'.sched = .exited ∧ g'.v = g.v ∧ g'.u = g.u)
     ∧ (∀ e rest, g.active &&& ~~~(g.eff o.pr &&& g.live) = 0 → g.stack = e :: rest →
       let keep := ~~~(g.eff o.pr &&& g.live)
       let below := rest.map fun x => { x with saved := x.saved &&& keep, pendMask := x.pendMask &&& keep }
       (e.pendMask &&& keep &&& g.live ≠ 0 → r.hdr.inCode e.pendTarget = true →
         exec (.exit w o) s = .next (s.withThr w c r { g with
           live := g.live &&& keep, active := e.pendMask &&& keep &&& g.live
           stack := { e with saved := e.saved &&& keep, pendMask := 0 } :: below, pc := e.pendTarget }))
       ∧ (e.pendMask &&& keep = 0 → e.saved &&& keep &&& g.live ≠ 0 → r.hdr.inCode e.reconv = true →
         exec (.exit w o) s = .next (s.withThr w c r { g with
           live := g.live &&& keep, active := e.saved &&& keep &&& g.live, stack := below, pc := e.reconv }))))
  ∧ ((∀ (s : State) (w : Who) (o : COp) (c : Core) (r : Run) (g : Grp), s.Issues w c r g → thrIsLead w.thr = false → g.eff o.pr = 0 →
       exec (.barUnit w o) s = .next (s.advanced w c r g))
     ∧ (∀ (s : State) (w : Who) (o : COp) (c : Core) (r : Run) (g : Grp), s.Issues w c r g → thrIsLead w.thr = false → g.eff o.pr ≠ 0 →
       g.eff o.pr = g.live → r.barNear = false →
       let waiting := { r with clock := r.clock + 1 }.putThr w.thr
         { g with pc := g.pc + 1, sched := .pendingWait (.barrier (o.offa.toNat % 16)), since := r.clock }
       exec (.barUnit w o) s = .next (s.withDev ((s.dev.setCore w.core.val { c with run := some waiting }).checkBarriers r)))
     ∧ (∀ (s : State) (w : Who) (o : COp) (c : Core) (r : Run) (g : Grp), s.Issues w c r g → thrIsLead w.thr = false → g.eff o.pr ≠ 0 →
       g.eff o.pr ≠ g.live →
       exec (.barUnit w o) s = .next (s.withDev ((s.dev.putThr w c r { g with sched := .pendingWait .error }).raise r.q r.slot 0x0402)))
     ∧ (∀ (s : State) (core : Fin 768) (b : Fin 16) (c : Core) (r : Run), s.RunsOn core.val c r → r.cores = [core.val] →
       r.barNear = false → (∃ x ∈ r.groups, x.2.sched ≠ .exited) →
       (∀ x ∈ r.groups, x.2.sched = .exited ∨ x.2.sched = .pendingWait (.barrier b.val)) →
       exec (.barrierRelease core b) s = .next (s.withRun core.val c { r with
         clock := r.clock + 1
         groups := smapMap (fun _ g => if g.sched = .pendingWait (.barrier b.val) then
           { g with sched := .pendingReady, since := r.clock } else g) r.groups })))

/-- R47 to R49, R89: RFILL takes the ring's next slot when one is empty; a fill whose bytes are all there and no earlier one outstanding
puts them in its slot; WAITRING takes the fill at the group's consume index once it is full, or 0 and false when it will never be made,
and WAITRING.REL releases what the group holds. -/
def Obligations.RingResult : Prop :=
  (∀ (s : State) (w : Who) (o : ROp) (c : Core) (r : Run) (g : Grp) (x : Ring), s.Issues w c r g → thrIsLead w.thr = true →
    o.h.toNat < r.hdr.rings.length → g.eff o.pr ≠ 0 → r.rings[o.h.toNat]? = some x →
    let a := (g.ureg o.ua.toNat).toNat
    let l := (g.ureg o.ul.toNat).toNat
    rfillError x a l = none → x.fills.length < x.slots → (x.fills.countP fun f => !f.arrived) < 8 →
    exec (.rfill w o) s = .next (s.withThr w c { r with rings := r.rings.set o.h.toNat { x with
      next := x.next + 1
      fills := x.fills ++ [{ num := x.next, va := a, rowBytes := natBitsAt l 0 16, rows := natBitsAt l 16 16,
                             stride := natBitsAt l 32 32, bytes := [], arrived := false, poisoned := false }] } } g.step))
  ∧ (∀ (s : State) (core : Fin 768) (h : Fin 16) (c : Core) (r : Run) (x : Ring) (f : Fill), s.RunsOn core.val c r →
    c.stopped = false → r.rings[h.val]? = some x → x.fills = [f] → f.arrived = false → f.bytes.length = f.size →
    s.dev.fillAway core.val h.val f.num = false →
    ∃ t r', exec (.ringFillComplete core h f.num) s = .next t ∧ (t.dev.core core.val).run = some r'
      ∧ r'.scratch = memWrite r.scratch (x.slotOff f.num) f.bytes ∧ t.dev.mem = s.dev.mem)
  ∧ (∀ (s : State) (w : Who) (o : ROp) (c : Core) (r : Run) (g : Grp) (x : Ring), s.Issues w c r g → thrIsLead w.thr = false →
    o.h.toNat < r.hdr.rings.length → g.eff o.pr ≠ 0 → r.rings[o.h.toNat]? = some x → thrIndex w.thr < x.consumers →
    let r1 := r.releaseHeld w.thr g o.h.toNat
    (∃ g1, r1.thr w.thr = some g1 ∧ exec (.waitringRel w o) s = .next (s.withThr w c r1 g1.step)
      ∧ (smapGet g1.rings o.h.toNat RingUse.start).holds = none ∧ g1.v = g.v ∧ g1.u = g.u)
    ∧ (∀ g1 x1, r1.thr w.thr = some g1 → r1.rings[o.h.toNat]? = some x1 →
      let f := (smapGet g1.rings o.h.toNat RingUse.start).consume
      (x1.full f = true → exec (.waitring w o) s = .next (s.withThr w c r1
        ((({ g1 with rings := smapPut g1.rings o.h.toNat { consume := f + 1, holds := some f } }.setUreg o.ud.toNat
          (BitVec.ofNat 64 (x1.slotOff f))).setPred o.pd.toNat g1.live maskAll)).step))
      ∧ (x1.full f = false → r1.neverFilled o.h.toNat f = true → exec (.waitring w o) s = .next (s.withThr w c r1
        ((g1.setUreg o.ud.toNat 0).setPred o.pd.toNat g1.live 0).step))))

/-- R38, R90, R159: an NSPLIT whose near cache holds every present line gives the near cache its units and the scratch above S reads 0. STATF of a record whose bytes are stored clears it and goes on, the statistics record once no drain of the group that counts into it is left (R131, R134). -/
def Obligations.SystemInstructionResult : Prop :=
  (∀ (s : State) (w : Who) (o : SOp) (c : Core) (r : Run) (g : Grp), s.Issues w c r g → thrIsLead w.thr = false → g.eff o.pr ≠ 0 →
    let n := o.imm32.toNat % 32
    n ≤ 16 → n * 32768 + r.spill + r.hdr.scratchBytes ≤ 524288 → c.near.length ≤ 512 * n →
    ∃ c', exec (.nsplit w o) s = .next (s.withThr w c'
        { r with scratch := memClear r.scratch (524288 - n * 32768 - r.spill) 524288 } g.step)
      ∧ c'.nearUnits = n ∧ c'.near = c.near ∧ { c' with nearUnits := c.nearUnits, stale := c.stale } = c)
  ∧ (∀ row ∈ statfRows, ∀ (s : State) (w : Who) (o : SOp) (c c' : Core) (r r' : Run) (g : Grp) (accs : List Acc1)
      (ls : List LineWrite) (m m' : Made) (d1 d2 d3 : Dev), s.Issues w c r g → g.eff o.pr ≠ 0 →
    let bs := row.2.1 g
    let left := g.todo.getD (BitVec.ofNat 64 (2 ^ (bs.length / 64) - 1))
    let as := (threadsOf left).map fun i => (i, (g.ureg o.ua.toNat).toNat + 64 * i)
    let val (i : Nat) : Nat := leNat ((bs.drop (64 * i)).take 64)
    (row.2.2.2 = true → r.statDrain w.thr = none) →
    s.dev.precheck r true 64 64 (as.map (·.2)) = none → s.dev.reach w r 64 .write as = (accs, none, d1) →
    d1.stores w r false 64 val accs [] Made.start = (ls, m, d2) → m.halt = none →
    d2.lineWrites w.core.val (r.rq w.core.val) true ls m = (m', d3) → m'.halt = none →
    d3.core w.core.val = c' → c'.run = some r' →
    exec (row.1 w o) s = .next (s.withDev (d3.putThr w c' r' { row.2.2.1 g with todo := none, pc := g.pc + 1 })))

/-- R25, R28, R29, R154: a group whose event has happened becomes ready, one that waited for an acquire's answers with the acquire action done; with fewer than 8 groups active, the group that became ready first,
lowest rank first, becomes active. Nothing outside the core's troupe changes. R25, R37, R40: TROUPE_START starts the KERNEL's next troupe on
the unit of a core, once the groups of the one before have exited and its cores take groups. -/
def Obligations.SchedulingResult : Prop :=
  (∀ (s : State) (core : Fin 768) (c : Core) (r : Run), s.RunsOn core.val c r →
     (∀ (gi : Fin 64) g why, smapGet? r.groups gi.val = some g → g.sched = .pendingWait why →
       s.dev.resolved core.val r gi.val g why = true →
       let awake := { r with clock := r.clock + 1, groups := smapPut r.groups gi.val { g with sched := .pendingReady, since := r.clock } }
       ((∀ ids, why ≠ .acquire ids) → exec (.groupWake core gi) s = .next (s.withRun core.val c awake))
       ∧ ((∃ ids, why = .acquire ids) → exec (.groupWake core gi) s
           = .next (s.withDev ((s.dev.acquireNear core.val).setCore core.val { (s.dev.acquireNear core.val).core core.val with run := some awake }))))
     ∧ (∀ (gi : Fin 64) g why, smapGet? r.groups gi.val = some g → g.sched = .pendingWait why →
       s.dev.resolved core.val r gi.val g why = false → exec (.groupWake core gi) s = .next s)
     ∧ (∀ gi g, c.stopped = false → (r.groups.countP fun x => x.2.sched = .active) < 8 →
       earliest (fun g => g.sched = .pendingReady) r.groups = some (gi, g) →
       exec (.issueSlotTake core) s = .next (s.withRun core.val c { r with
         groups := smapPut r.groups gi { g with sched := .active } }))
     ∧ (8 ≤ (r.groups.countP fun x => x.2.sched = .active) → exec (.issueSlotTake core) s = .next s))
  ∧ (∀ (s : State) (core : Fin 768) (q : Nat) (cm cm' : Cmd) (j j' : KernelJob) (u u' : List Nat), s.dev.halted = false →
       s.dev.kernelOn core.val = some (q, cm, j, u) →
       (s.dev.reapTroupes q cm.slot).kernelOn core.val = some (q, cm', j', u') → j'.next < j'.troupes →
       (∀ k ∈ u', ((s.dev.reapTroupes q cm.slot).core k).run = none ∧ ((s.dev.reapTroupes q cm.slot).core k).takesGroups = true
         ∧ (s.dev.reapTroupes q cm.slot).tileUp (k / 16) = true) →
       exec (.troupeStart core) s = .next (s.withDev ((s.dev.reapTroupes q cm.slot).startTroupe q cm' j' u' Dev.flushNear)))

/-- R31, R32, R116, R414: a failed lane leaves the core one lane fewer when the spare is gone, at which the Capability Table's GENERATION rises
by 2, and stops the core that runs a command; a failed
row removes its array, a second failed column narrows it to 31 and a third removes it. -/
def Obligations.ResidueFailureResult : Prop :=
  (∀ (s : State) (core : Fin 768) (lane : Fin 17), s.dev.halted = false → lane.val ∉ (s.dev.core core.val).lanesFailed →
    ∃ t, exec (.laneResidueFail core lane) s = .next t
      ∧ (t.dev.core core.val).lanesFailed = (s.dev.core core.val).lanesFailed ++ [lane.val]
      ∧ ((s.dev.core core.val).run.isSome = true → (t.dev.core core.val).stopped = true)
      ∧ ((s.dev.core core.val).lanesFailed ≠ [] → (s.dev.core core.val).laneSpareLost = false →
        (t.dev.core core.val).lanes = min 16 (16 - (s.dev.core core.val).lanesFailed.length)
        ∧ ((s.dev.core core.val).lanesFailed.length < 17 → t.dev.minuet.generation = s.dev.minuet.generation + 2)))
  ∧ (∀ (s : State) (core : Fin 768) (a : Fin 4) (what : ColRow) (x : ArrayHw), s.dev.halted = false →
    (s.dev.core core.val).arrayHw[a.val]? = some x → x.fail what ≠ x →
    ∃ t y, exec (.columnResidueFail core a what) s = .next t ∧ (t.dev.core core.val).arrayHw[a.val]? = some y
      ∧ ((s.dev.core core.val).run.isSome = true → (t.dev.core core.val).stopped = true)
      ∧ ((∃ row, what = .row row) → y.width = none)
      ∧ (∀ col, what = .column col → y.failedCols = x.failedCols ++ [col.val]
        ∧ (x.spareLost = false → x.rowFailed = false → x.failedCols ≠ [] →
          y.width = if x.failedCols.length = 1 then some 31 else none)))

/-- R173 to R175, R180, R181: a RD_SHARED of a line that no other agent holds is granted with state E and the line's bytes, and S where
another shares it; a RD_OWN that no other agent holds is granted M with the bytes, a CLAIM_OWN of a shared copy M without them, and of a
lost copy with them; a companion without an allowance is given the bytes and keeps nothing (R321). Where others
hold the line, the home snoops them and waits. A request that the home cannot take is turned away. R171, R173, R174, R179: EVICT clears the
agent's tag and WRITE_BACK first writes its bytes. An agent answers a snoop by its state, keeping S at most for SNP_SHARED and nothing for
SNP_INV, and owes its data from M; in its ownership hold, or with a grant on its way, the snoop waits. The home goes on when the answers and
the data that it waits for are there. -/
def Obligations.RequestAndSnoopResult : Prop :=
  (∀ (s : State) (a : Fin 14) (line : BitVec 46), s.dev.halted = false →
     let n := line.toNat
     let d := s.dev
     let rq := d.agentRq a.val n
     (∀ d1, d.Requests a.val n .rdShared (some d1) → d.GoodLine n → (∀ b < 14, b ≠ a.val → d.tag b n = .i) →
       exec (.rdShared a line) s = .next (s.withDev ((d1.keepsLine rq n).grantLine n a.val (d.granted_ a.val .e) (d.memLine n) false)))
     ∧ (∀ d1, d.Requests a.val n .rdShared (some d1) → d.GoodLine n → (∀ b < 14, b ≠ a.val → d.tag b n = .i ∨ d.tag b n = .s) →
       (∃ b < 14, b ≠ a.val ∧ d.tag b n = .s) →
       exec (.rdShared a line) s = .next (s.withDev ((d1.keepsLine rq n).grantLine n a.val (d.granted_ a.val .s) (d.memLine n) false)))
     ∧ (∀ d1, d.Requests a.val n .rdOwn (some d1) → d.GoodLine n → (∀ b < 14, b ≠ a.val → d.tag b n = .i) →
       exec (.rdOwn a line) s = .next (s.withDev ((d1.keepsLine rq n).grantLine n a.val (d.granted_ a.val .m) (d.memLine n) false)))
     ∧ (∀ d1, d.Requests a.val n .claimOwn (some d1) → (∀ b < 14, b ≠ a.val → d.tag b n = .i) →
       (d.tag a.val n = .s →
         exec (.claimOwn a line) s = .next (s.withDev ((d1.setTag a.val n .m).sendCoh (.grant n a.val .m false 0 false))))
       ∧ (d.tag a.val n ≠ .s → d.GoodLine n →
         exec (.claimOwn a line) s = .next (s.withDev ((d1.keepsLine rq n).grantLine n a.val (d.granted_ a.val .m) (d.memLine n) false))))
     ∧ (∀ row ∈ coherentRows, ∀ d1, d.Requests a.val n row.2.1 (some d1) →
       let held := (List.range 14).filter fun b => b ≠ a.val ∧ d.knowsDead (d.home (64 * n)) b = false ∧
         (if row.2.1 = .rdShared then d.tag b n = .e ∨ d.tag b n = .m else d.tag b n ≠ .i)
       held ≠ [] →
       exec (row.1 a line) s = .next (s.withDev (held.foldl (fun d b => d.sendCoh (.snp n b (row.2.1 ≠ .rdShared)))
         (d1.setCoh { d1.coh with txns := d1.coh.txns ++
           [{ home := d.home (64 * n), line := n, req := row.2.2 a.val rq, started := true, awaiting := held, owed := [] }] }))))
     ∧ (∀ row ∈ coherentRows, d.Requests a.val n row.2.1 none →
       let d0 := d.setAline a.val n { d.aline a.val n with req := some row.2.1 }
       let h := d.home (64 * n)
       (d.get fShcHomeCtlNackMode h = 0 → (h, agentNum a.val) ∉ d.coh.reservations →
         exec (row.1 a line) s = .next (s.withDev (d0.setCoh { d0.coh with
           reservations := d.coh.reservations ++ [(h, agentNum a.val)] })))
       ∧ (d.get fShcHomeCtlNackMode h = 1 → exec (row.1 a line) s = .next (s.withDev (d0.answerNack h (agentNum a.val))))))
  ∧ (∀ (s : State) (a : Fin 14) (line : BitVec 46), s.dev.halted = false →
       let n := line.toNat
       let d := s.dev
       let h := d.home (64 * n)
       let x := d.aline a.val n
       (x.leaving = true → d.reaches a.val = true → d.firstTxn n = none → d.knowsDead h a.val = false →
         let d1 := d.setAline a.val n { ALine.none with req := x.req, snoop := x.snoop, rq := x.rq }
         (x.st ≠ .m → exec (.evict a line) s = .next (s.withDev (d1.setTag a.val n .i)))
         ∧ (x.st = .m → d.backed (64 * n) = true →
             let d2 := (d1.setMemLine n x.data).setPoison n x.poison
             let d3 := d2.setHbm { d2.hbm with bad := d2.hbm.bad.filter (· ≠ n), weak := d2.hbm.weak.filter (· ≠ n) }
             exec (.writeBack a line) s = .next (s.withDev ((d3.shcTouch h x.rq.part n true).setTag a.val n .i)))
         ∧ (x.st = .m → d.backed (64 * n) = false →
             exec (.writeBack a line) s = .next (s.withDev ((d1.withheld n x.rq.part).setTag a.val n .i))))
       ∧ (∀ row ∈ snoopRows, .snp n a.val row.2 ∈ d.coh.msgs → d.dead a.val = false →
         let d1 := d.takeCoh (.snp n a.val row.2)
         (x.leaving = true → exec (row.1 a line) s = .next (s.withDev (d1.sendCoh (.resp n a.val .i false true))))
         ∧ (x.leaving = false → (x.hold = true ∨ d.grantComing a.val n = true) →
             exec (row.1 a line) s = .next (s.withDev (d1.setAline a.val n { x with snoop := some row.2 })))
         ∧ (x.leaving = false → x.hold = false → d.grantComing a.val n = false →
             let st' : LState := if row.2 = true ∨ x.st = .i then .i else .s
             let d2 := (d1.setAline a.val n (if st' = .i then { ALine.none with req := x.req, rq := x.rq }
               else { x with st := .s, snoop := none })).sendCoh (.resp n a.val st' (x.st = .m) false)
             exec (row.1 a line) s = .next (s.withDev (if x.st = .m then d2.sendCoh (.toHome n a.val x.data x.poison) else d2))))
       ∧ (∀ st owes t, d.OnlyResp a.val n st owes → d.knowsDead h a.val = false → d.firstTxn n = some t → t.started = true →
         a.val ∈ t.awaiting →
         let d1 := ((d.takeCoh (.resp n a.val st owes false)).setTag a.val n st).putTxn
           { t with awaiting := t.awaiting.erase a.val, owed := if owes then t.owed ++ [a.val] else t.owed }
         ((t.awaiting.erase a.val ≠ [] ∨ owes = true ∨ t.owed ≠ []) → exec (.snpResp a line) s = .next (s.withDev d1))
         ∧ (∀ b rq, t.req = .rdOwn b rq → d.knowsDead h b = false → t.awaiting = [a.val] → owes = false → t.owed = [] → d.GoodLine n →
             (d.coh.txns.countP fun t => t.line = n) = 1 →
             exec (.snpResp a line) s = .next (s.withDev (((d1.setCoh { d1.coh with txns := dropFirst n d1.coh.txns }).keepsLine rq n).grantLine
               n b (d.granted_ b .m) (d.memLine n) false))))
       ∧ (∀ x bad t, d.OnlyHomeData a.val n x bad → d.knowsDead h a.val = false → d.firstTxn n = some t → a.val ∈ t.owed →
         exec (.data (.home a line)) s = .next (s.withDev ((((d.takeCoh (.toHome n a.val x bad)).homeTakes t.req.rq n x bad).putTxn
           { t with owed := t.owed.erase a.val }).settleHome n)))
       ∧ (∀ st withData y bad, d.OnlyGrant a.val n st withData y bad →
         let d0 := d.takeCoh (.grant n a.val st withData y bad)
         (d.dead a.val = true → exec (.data (.agent a line)) s = .next (s.withDev d0))
         ∧ (d.dead a.val = false → x.snoop = none → d.noWaits a.val n →
           let x' : ALine := { x with st := st, data := if withData then y else x.data, poison := if withData then bad else x.poison,
                                      hold := st = .e || st = .m, used := false, req := none }
           let d1 := d0.setAline a.val n x'
           exec (.data (.agent a line)) s = .next (s.withDev
             ((if a.val = 13 then d1.toCompanion (.line (agentNum 13) n x'.data x'.poison) else d1).settleHome n)))))

/-- R168, R173, R179, R185, R311, R315: a local read of a copy gives its bytes, which a host hart that meets poison takes as an access fault; a
local write merges into a copy in E or M; on a line the agent lacks, or shares, they ask for it. A host hart's accesses to an LPDDR5X line are
served by the host shared cache, its home. A replaced line leaves, answering a snoop that waits; the end of an ownership hold in which a
local access completed answers the snoop that waited. -/
def Obligations.AgentLocalResult : Prop :=
  ∀ (s : State) (a : Fin 14) (hart : Fin 96) (fetch : Bool) (line : BitVec 46) (m : Mask) (l : Line), s.dev.halted = false →
    let n := line.toNat
    let d := s.dev
    let x := d.aline a n
    (x.leaving = false → d.localMay a.val hart.val = true → (a.val ≠ 12 ∨ isLp (64 * n) = false) →
      (x.st ≠ .i →
        let d1 := d.useCopy a.val n
        (a.val ≠ 12 → exec (.agentLocalRead ⟨a, hart, fetch⟩ line) s = .next (s.withDev (d1.emit (.line (agentNum a.val) n x.data x.poison))))
        ∧ (a.val = 12 → x.poison = false →
            exec (.agentLocalRead ⟨a, hart, fetch⟩ line) s = .next (s.withDev (d1.emit (.line (agentNum 12) n x.data false))))
        ∧ (a.val = 12 → x.poison = true →
            exec (.agentLocalRead ⟨a, hart, fetch⟩ line) s = .next (s.withDev ((d1.log 1 68 noneByte 0 0 (64 * n) []).emit
              (.hartFault hart.val (if fetch then .fetch else .load))))))
      ∧ ((x.st = .e ∨ x.st = .m) → exec (.agentLocalWrite ⟨a, hart⟩ line m l) s = .next (s.withDev (d.setAline a.val n
          { x with st := .m, data := mergeLine x.data m l, poison := x.poison && m ≠ BitVec.allOnes 64, used := true })))
      ∧ (x.req = none → mayCache a.val n = true → d.agentFull a.val n = false →
          let asks (k : AgentReq) := s.withDev (d.setAline a.val n { x with req := some k, rq := d.localRq a.val hart.val })
          (x.st = .i → exec (.agentLocalRead ⟨a, hart, fetch⟩ line) s = .next (asks .rdShared)
            ∧ exec (.agentLocalWrite ⟨a, hart⟩ line m l) s = .next (asks .rdOwn))
          ∧ (x.st = .s → exec (.agentLocalWrite ⟨a, hart⟩ line m l) s = .next (asks .claimOwn))))
    ∧ (x.leaving = false → d.localMay 12 hart.val = true → a.val = 12 → isLp (64 * n) = true →
      let rq := d.hartRq hart.val
      ∀ d1, d.accepts 12 rq = some d1 → d.firstTxn n = none → n ∉ d.coh.suspect → d.GoodLine n → (∀ b < 14, d.tag b n = .i) →
        exec (.agentLocalRead ⟨a, hart, fetch⟩ line) s
          = .next (s.withDev ((d1.keepsLine rq n).emit (.line (agentNum 12) n (d.memLine n) false)))
        ∧ exec (.agentLocalWrite ⟨a, hart⟩ line m l) s = .next (s.withDev ((d1.pokeLine n m l).shcTouch 12 rq.part n true)))
    ∧ (x.st ≠ .i → x.leaving = false →
        let d1 := d.setAline a.val n { x with leaving := true, hold := false, used := false, snoop := none }
        exec (.agentReplacement a line) s
          = .next (s.withDev (if x.snoop = none then d1 else d1.sendCoh (.resp n a.val .i false true))))
    ∧ (x.leaving = true ∨ d.localMay a.val hart.val = false →
        exec (.agentLocalRead ⟨a, hart, fetch⟩ line) s = .next s ∧ exec (.agentLocalWrite ⟨a, hart⟩ line m l) s = .next s)
    ∧ (x.leaving = true ∨ x.st = .i → exec (.agentReplacement a line) s = .next s)
    ∧ (x.hold = false ∨ x.used = false → exec (.ownershipHoldExpiry a line) s = .next s)
    ∧ (x.hold = true → x.used = true →
      (x.snoop = none →
        exec (.ownershipHoldExpiry a line) s = .next (s.withDev ((d.setAline a.val n { x with hold := false }).settleHome n)))
      ∧ (∀ inv, x.snoop = some inv → exec (.ownershipHoldExpiry a line) s = .next (s.withDev
          (((d.setAline a.val n { x with hold := false, snoop := none }).answerSnoop a.val n inv).settleHome n))))

/-- R170, R176 to R178, R185, R214: a stream request that its HBM home takes, with no agent holding the line, reads it, merges its bytes
into it, or performs its atomic and returns the old word; a bridge with an LPDDR5X line in E or M serves it from its own copy, and one
without it asks for it. DATA reaches its requester, and a redirect mark makes its reader send the read to the replica. -/
def Obligations.StreamRequestResult : Prop :=
  (∀ (s : State) (rq : Requester) (line : BitVec 46) (d0 : Dev), s.dev.halted = false →
    let n := line.toNat
    let d := s.dev
    let h := d.home (64 * n)
    let q := streamRq rq
    isHbm (64 * n) = true → d.accepts h q = some d0 → d.firstTxn n = none → n ∉ d.coh.suspect → (∀ b < 14, d.tag b n = .i) →
    let d1 := d0.setCoh { d0.coh with refused := d0.refusedOthers n q.num }
    (∀ found, d.earlierRefused n q.num (.strRd rq found) = false →
      (∀ x bad d2, d1.homeRead q n found = ((x, bad), d2) →
        (bad = false ∨ d2.replica n = none →
          exec (.strRd rq line found) s = .next (s.withDev (d2.sendCoh (.toRequester n q.num x bad))))
        ∧ (∀ k, bad = true → d2.replica n = some k →
          exec (.strRd rq line found) s = .next (s.withDev ((d2.log 3 (56 + d2.home (64 * n)) noneByte 0 0 (64 * n) []).sendCoh
            (.redirect n (.requester rq.num) k (.strRd rq found))))))
      ∧ (d.GoodLine n → found = .clean →
          exec (.strRd rq line found) s = .next (s.withDev ((d1.keepsLine q n).sendCoh (.toRequester n q.num (d.memLine n) false)))))
    ∧ (∀ m l, d.GoodLine n → d.earlierRefused n q.num (.strWr rq m l) = false →
        exec (.strWr rq line m l) s = .next (s.withDev ((d1.pokeLine n m l).shcTouch h q.part n true)))
    ∧ (∀ off aop wide v c, d.GoodLine n → d.earlierRefused n q.num (.strAtom rq off.toNat aop.toNat wide v c) = false →
        exec (.strAtom rq line off aop wide v c) s = .next (s.withDev
          ((((d1.keepsLine q n).pokeLine n (BitVec.allOnes 64)
            (atomLine (d.memLine n) off.toNat aop.toNat wide v.toNat c.toNat)).shcTouch h q.part n true).sendCoh
            (.toRequester n q.num (BitVec.ofNat 512 (atomWord (d.memLine n) off.toNat wide)) false)))))
  ∧ (∀ (s : State) (rq : Requester) (line : BitVec 46), s.dev.halted = false →
    let n := line.toNat
    let d := s.dev
    let b := lpBridge rq.quad.val (64 * n)
    let x := d.aline b n
    isLp (64 * n) = true → d.backed (64 * n) = true → d.dead b = false → d.noWaits b n →
    (x.st ≠ .i → ∀ found, exec (.strRd rq line found) s = .next (s.withDev ((d.useCopy b n).sendCoh
      (.toRequester n rq.num.toNat x.data x.poison))))
    ∧ ((x.st = .e ∨ x.st = .m) → ∀ m l, exec (.strWr rq line m l) s = .next (s.withDev (d.setAline b n
        { x with st := .m, data := mergeLine x.data m l, poison := x.poison && m ≠ BitVec.allOnes 64, used := true })))
    ∧ ((x.st = .e ∨ x.st = .m) → ∀ off aop wide v c, x.poison = false → exec (.strAtom rq line off aop wide v c) s = .next (s.withDev
        ((d.setAline b n { x with st := .m, data := atomLine x.data off.toNat aop.toNat wide v.toNat c.toNat, used := true }).sendCoh
          (.toRequester n rq.num.toNat (BitVec.ofNat 512 (atomWord x.data off.toNat wide)) false))))
    ∧ (x.st = .i → x.req = none → d.agentFull b n = false → ∀ found,
        let d1 := d.setCoh { d.coh with waits := d.coh.waits ++ [{ agent := b, line := n, req := .strRd rq found }] }
        exec (.strRd rq line found) s = .next (s.withDev (d1.setAline b n { x with req := some .rdShared, rq := streamRq rq }))))
  ∧ (∀ (s : State) (num : BitVec 12) (line : BitVec 46), s.dev.halted = false →
    let n := line.toNat
    let d := s.dev
    (∀ x bad, d.OnlyAnswer num.toNat n x bad → exec (.data (.requester num line)) s = .next (s.withDev
      ((d.takeCoh (.toRequester n num.toNat x bad)).emit (.line num.toNat n x bad))))
    ∧ (∀ k rq found, d.OnlyRedirect (.requester num) n k (.strRd rq found) → exec (.dataRedirect (.requester num) line) s
        = .next (s.withDev (Dev.streamRequest rq k (.strRd rq .clean)
            ((d.takeCoh (.redirect n (.requester num) k (.strRd rq found))).emit (.redirected num.toNat n k)))))
    ∧ (∀ (a : Fin 14) k r, d.OnlyRedirect (.agent a) n k r → k ≠ n →
        let d1 := ((d.takeCoh (.redirect n (.agent a) k r)).setAline a.val n { d.aline a.val n with req := none }).setAline a.val k
          { d.aline a.val k with req := (d.aline a.val n).req, rq := (d.aline a.val n).rq }
        exec (.dataRedirect (.agent a) line) s
          = .next (s.withDev (if a.val = 13 then d1.toCompanion (.redirected (agentNum 13) n k) else d1))))
  ∧ (∀ (s : State) (id : W32) (v : BitVec 128) (m : Remote) (t reg n : Nat) (sext : Bool) (w : Who) (c : Core) (r : Run) (g : Grp)
      (regs : List Nat),
    s.dev.halted = false → s.dev.remote? id.toNat = some m → m.id = id.toNat → m.kind = .read t reg n sext → m.who = some w →
    (s.dev.core w.core.val) = c → c.run = some r → r.q = m.q → r.slot = m.slot → r.thr w.thr = some g →
    g.sched ≠ .exited → (id.toNat, regs) ∈ g.away →
    exec (.data (.remoteRead id v false)) s = .next (s.withDev ((s.dev.dropRemote id.toNat).putThr w c r
      ({ g with away := g.away.filter fun x => x.1 ≠ id.toNat }.setLoaded reg n sext [(t, v.toNat)]))))

/-- R180 to R184, R204, R333: a request that a home turns away gets a reservation in RETRY mode and a backoff of 128 SHC cycles, doubled by
each consecutive NACK up to 6 times, plus 8 cycles by its number, in NACK mode; the backoff and the reservation end. A request of this
module that another answers RETRY stays in the replay buffer. A snoop timer
poisons its line, counts, declares the late agents dead and drops what they held; SHC_HOME_CTL takes NACK_MODE. -/
def Obligations.HomeControlResult : Prop :=
  ∀ (s : State) (home : Fin 13) (rq : Asker) (who : Sender), s.dev.halted = false →
    let d := s.dev
    let h := home.val
    let num := senderNum rq.who
    (d.turnsAway h rq = true → d.get fShcHomeCtlNackMode h = 0 → (h, num) ∉ d.coh.reservations →
      exec (.retry (.home home) rq) s = .next (s.withDev (d.setCoh { d.coh with reservations := d.coh.reservations ++ [(h, num)] })))
    ∧ (d.turnsAway h rq = true → d.get fShcHomeCtlNackMode h = 1 →
      let k := smapGet d.coh.nacks (8192 * h + num) 0
      exec (.nack home rq) s = .next (s.withDev (d.setCoh { d.coh with
        nacks := smapPut d.coh.nacks (8192 * h + num) (k + 1)
        backoff := (d.coh.backoff.filter fun b => ¬(b.1 = h ∧ b.2.1 = num)) ++ [(h, num, 128 * 2 ^ min k 6 + 8 * (num % 16))] })))
    ∧ (d.turnsAway h rq = false → exec (.retry (.home home) rq) s = .next s ∧ exec (.nack home rq) s = .next s)
    ∧ (∀ id : W32, exec (.retry (.remote id) rq) s = .next (s.withDev (d.setReel { d.reel with remotes := d.reel.remotes.map fun x =>
        if x.id = id.toNat ∧ x.flight = .sent ∧ x.port.isSome then { x with flight := .turned } else x })))
    ∧ (∃ t, exec (.nackBackoffExpiry home who) s = .next t ∧ t.dev.backsOff h (senderNum who) = false
        ∧ (∀ h' num', (h', num') ≠ (h, senderNum who) → t.dev.backsOff h' num' = d.backsOff h' num') ∧ t.dev.mem = d.mem ∧ t.dev.regs = d.regs)
    ∧ (∃ t, exec (.reservationTimeout home who) s = .next t ∧ senderNum who ∉ t.dev.reserved h
        ∧ (∀ h', h' ≠ h → t.dev.reserved h' = d.reserved h') ∧ t.dev.mem = d.mem ∧ t.dev.regs = d.regs)
    ∧ (∀ (line : BitVec 46) (t : Txn), d.firstTxn line.toNat = some t → t.home = h → t.started = true → t.awaiting ++ t.owed ≠ [] →
      let late := (t.awaiting ++ t.owed).eraseDups
      let d1 := (d.bump fShcHomeStatTimeouts 1 h).setPoison line.toNat true
      let d2 := late.foldl (fun d a => (d.declareDead h a).setTag a line.toNat .i) d1
      let d3 := late.foldl (fun d a => d.setAline a line.toNat ALine.none) d2
      exec (.homeTimeout home line) s = .next (s.withDev (late.foldl (fun d a => d.bury h a) d3)))
    ∧ (∀ a : Fin 14, d.dead a.val = true →
      let ns := (d.coh.tags.filter fun x => x.1 % 16 = a.val ∧ d.home (64 * (x.1 / 16)) = h).map (·.1 / 16)
      let d1 := ns.foldl (fun d n =>
        (((if d.tag a.val n = .e ∨ d.tag a.val n = .m then d.setPoison n true else d).setTag a.val n .i).setAline a.val n ALine.none))
        (d.tell h a.val)
      exec (.agentDeadNotice home a) s = .next (s.withDev ((d1.dropReservation h (agentNum a.val)).buryTxns h a.val)))
    ∧ (∀ v : W64, ∃ t, exec (.shcHomeCtlWrite home v) s = .next t ∧ t.dev.get fShcHomeCtlNackMode h = natBitsAt v.toNat 0 1
        ∧ t.dev.coh = d.coh ∧ t.dev.mem = d.mem
        ∧ (∀ (h' : Fin 13), h' ≠ home → t.dev.word .shcHomeCtl h'.val 0 = d.word .shcHomeCtl h'.val 0))

/-- R193, R207, R209, R301, R302, R305, R308: at its measure boundary an instance counts one measure, takes its waiting TMP_BEATS word and gives each
regulator its budget and each activity its beats again, a snapshot that waits is sampled at the host complex, and nothing in memory changes. A stack's temperature sets its TEMP, the band that waits for the next boundary,
THROTTLE from 100 and CLAMP from 103 degrees; the LPDDR5X band is the highest the 16 channels report. R172, R202, R203, R234, R294: patrol
scrub passes a good line, counts an HBM line's corrected error for its remap unit and an LPDDR5X line's in CE_COUNT, and treats an
uncorrectable line as found; no activity goes beyond its beats of the measure. A remap-copy beat copies the next lines of the first unit of
its stack that is not copied; a shadow-copy beat copies the lines of a granule as far as the beats go; a carve-out beat writes zeroes over its lines and no other; a tag entry with an uncorrectable error marks its line. -/
def Obligations.TempoAndUpkeepResult : Prop :=
  ((∀ (s : State) (n : Fin 13), s.dev.halted = false → ∃ t, exec (.measureBoundary n) s = .next t
     ∧ smapGet t.dev.tempo.measures n.val 0 = smapGet s.dev.tempo.measures n.val 0 + 1
     ∧ (∀ p < 49, smapGet t.dev.tempo.budgets (64 * n.val + p) 0 = t.dev.budget n.val p)
     ∧ (∀ w, smapGet? s.dev.tempo.beats n.val = some w → t.dev.word .tmpBeats n.val 0 = w.toNat)
     ∧ (∀ m : Fin 13, m ≠ n → smapGet t.dev.tempo.measures m.val 0 = smapGet s.dev.tempo.measures m.val 0
         ∧ ∀ p < 49, smapGet t.dev.tempo.budgets (64 * m.val + p) 0 = smapGet s.dev.tempo.budgets (64 * m.val + p) 0)
     ∧ (∀ k < 9, smapGet t.dev.tempo.used (16 * n.val + k) 0 = 0)
     ∧ (n.val = 12 → s.dev.tempo.snapshot.isSome → t.dev.tempo.sampled.isSome)
     ∧ t.dev.mem = s.dev.mem ∧ t.dev.coh = s.dev.coh ∧ t.dev.queues = s.dev.queues)
   ∧ (∀ (s : State) (k : Fin 24) (temp : Byte), s.dev.halted = false →
     let cur := s.dev.get fHbmStackStatBand k.val
     let b := s.dev.nextBand k.val cur
     let x := temp.toNat
     ∃ t, exec (.stackTemperatureRead k temp) s = .next t
       ∧ t.dev.get fHbmStackStatTemp k.val = x ∧ t.dev.get fHbmStackStatBand k.val = cur
       ∧ t.dev.nextBand k.val cur = (if 95 ≤ x ∨ (b = 2 ∧ 93 < x) then 2 else if 85 ≤ x ∨ (1 ≤ b ∧ 83 < x) then 1 else 0)
       ∧ t.dev.get fHbmStackStatThrottle k.val = (if 100 ≤ x then 1 else if x < 97 then 0 else s.dev.get fHbmStackStatThrottle k.val)
       ∧ t.dev.get fHbmStackStatClamp k.val = (if 103 ≤ x then 1 else if x < 100 then 0 else s.dev.get fHbmStackStatClamp k.val)
       ∧ t.dev.mem = s.dev.mem ∧ t.dev.cores = s.dev.cores)
   ∧ (∀ (s : State) (ch : Fin 16) (rate : BitVec 2), s.dev.halted = false → ∃ t, exec (.lpddrRefreshRateReport ch rate) s = .next t
     ∧ smapGet t.dev.hbm.lpRates ch.val 0 = min rate.toNat 2
     ∧ (∀ c : Fin 16, smapGet t.dev.hbm.lpRates c.val 0 ≤ t.dev.nextBand lpBandKey (t.dev.get fTmpStatBand 12))
     ∧ (t.dev.nextBand lpBandKey (t.dev.get fTmpStatBand 12) = 0
         ∨ ∃ c : Fin 16, smapGet t.dev.hbm.lpRates c.val 0 = t.dev.nextBand lpBandKey (t.dev.get fTmpStatBand 12))
     ∧ t.dev.mem = s.dev.mem ∧ t.dev.regs = s.dev.regs)
   ∧ (∀ (s : State) (site : Fin 69), s.dev.halted = false →
     let n := calibrator site.val
     (beatLines n ≤ s.dev.beatLeft n actProm →
       exec (.promenadeCalibration site) s = .next (s.withDev (s.dev.spent n actProm (beatLines n))))
     ∧ (s.dev.beatLeft n actProm < beatLines n → exec (.promenadeCalibration site) s = .next s)))
  ∧ ((∀ (s : State) (line : BitVec 46), s.dev.halted = false →
       let d := s.dev
       let n := line.toNat
       d.backed (64 * n) = true → 0 < d.beatLeft (d.home (64 * n)) actScrub → d.lineBusy n = false →
       (isHbm (64 * n) = true → (d.hbmPlace (64 * n)).2 ≠ 0) →
       let d0 := d.spent (d.home (64 * n)) actScrub 1
       let strong (d : Dev) : Dev := d.setHbm { d.hbm with weak := d.hbm.weak.filter (· ≠ n) }
       (n ∉ d.hbm.bad → n ∉ d.hbm.weak → (d.isPoisoned n = false ∨ d.isReplica n = false) →
         exec (.patrolScrub line .clean) s = .next (s.withDev d0)
         ∧ exec (.patrolScrub line .weakens) s = .next (s.withDev (d0.setHbm { d.hbm with weak := insertNat d.hbm.weak n }))
         ∧ exec (.patrolScrub line .decays) s = .next (s.withDev (d0.setHbm { d.hbm with bad := insertNat d.hbm.bad n })))
       ∧ exec (.patrolScrub line .uncorrectable) s = .next (s.withDev (d0.foundBad n))
       ∧ (n ∉ d.hbm.bad → d.isPoisoned n = true → d.isReplica n = true →
         exec (.patrolScrub line .clean) s = .next (s.withDev (d0.log 1 (56 + d.home (64 * n)) noneByte 0 0 (64 * n) [])))
       ∧ (n ∉ d.hbm.bad → d.isPoisoned n = false → isHbm (64 * n) = true →
         let k := 1048576 * (d.remapUnit n).1 + (d.remapUnit n).2
         let d1 := d0.setHbm { d.hbm with corrected := smapPut d.hbm.corrected k (smapGet d.hbm.corrected k 0 + 1) }
         exec (.patrolScrub line .correctable) s = .next (s.withDev (strong
           (if d.get fHbmRasCtlCeThresh ≤ smapGet d.hbm.corrected k 0 + 1 then d1.startRemap (d.remapUnit n).1 (d.remapUnit n).2 else d1))))
       ∧ (n ∉ d.hbm.bad → d.isPoisoned n = false → isHbm (64 * n) = false →
         exec (.patrolScrub line .correctable) s = .next (s.withDev (strong (d0.bump fLpmRasStatCeCount 1)))))
     ∧ (∀ (s : State) (line : BitVec 46) (f : Finding), s.dev.halted = false →
       (s.dev.backed (64 * line.toNat) = false ∨ s.dev.beatLeft (s.dev.home (64 * line.toNat)) actScrub = 0
         ∨ s.dev.lineBusy line.toNat = true) →
       exec (.patrolScrub line f) s = .next s)
     ∧ (∀ (s : State) (k : Fin 24) (r : Remap), s.dev.halted = false → s.dev.remapsRun (stackBridge k.val) = true →
       s.dev.hbm.remaps.find? (fun r => r.stack = k.val ∧ r.copied < 1024) = some r → s.dev.coh.txns = [] →
       let left := s.dev.beatLeft (stackBridge k.val) actRemap
       let hi := min 1024 (r.copied + min 975 left / 2)
       ∃ t, exec (.remapCopy k) s = .next t
         ∧ t.dev.beatLeft (stackBridge k.val) actRemap + 2 * (hi - r.copied) = left
         ∧ t.dev.hbm.remaps = s.dev.hbm.remaps.map (fun x => if x.stack = k.val ∧ x.unit = r.unit then { x with copied := hi } else x)
         ∧ (∀ n i, s.dev.unitIndex k.val r.unit n = some i → r.copied ≤ i → i < hi →
             n ∉ t.dev.hbm.bad ∧ n ∉ t.dev.hbm.weak ∧ (n ∈ s.dev.hbm.bad → t.dev.isPoisoned n = true))
         ∧ t.dev.mem = s.dev.mem ∧ t.dev.queues = s.dev.queues)
     ∧ (∀ (s : State) (q : Fin 16384) (slot : W32) (granule : BitVec 36) (c : Cmd) (x : Shadow), s.dev.halted = false →
       s.dev.cmd? q.val slot.toNat = some c →
       (c.outputs.flatMap Output.shadows).find? (fun y => y.granule = granule.toNat ∧ y.copying = true) = some x →
       let r := Dev.copyLines (x.old / 64) (x.new / 64) (1024 - x.next) x.next s.dev
       exec (.shadowCopy q slot granule) s = .next (s.withDev (r.2.putCmd q.val (c.copied granule.toNat r.1))))
     ∧ (∀ (s : State) (q : Fin 16384) (slot : W32) (granule : BitVec 36) (c : Cmd) (x : Shadow) (d1 d2 : Dev), s.dev.halted = false →
       s.dev.cmd? q.val slot.toNat = some c →
       (c.outputs.flatMap Output.shadows).find? (fun y => y.granule = granule.toNat ∧ y.copying = true) = some x → x.next = 1023 →
       let a := x.old / 64 + 1023
       let b := x.new / 64 + 1023
       s.dev.GoodLine a → (∀ n ∈ [a, b], s.dev.lineBusy n = false ∧ s.dev.copiesHeld n (n = b) = false) →
       s.dev.spend (s.dev.home (64 * a)) actShadow 1 = some d1 → d1.spend (s.dev.home (64 * b)) actShadow 1 = some d2 →
       (∀ g < 14, (s.dev.aline g a).st ≠ .e ∧ (s.dev.aline g a).st ≠ .m) → a ∉ s.dev.coh.suspect →
       exec (.shadowCopy q slot granule) s = .next (s.withDev
         (((d2.pokeLine b (BitVec.allOnes 64) (s.dev.memLine a)).setPoison b false).putCmd q.val (c.copied granule.toNat 1024))))
     ∧ (∀ (s : State) (n : Fin 13) (x : Scrub), s.dev.halted = false → beatLines n.val ≤ s.dev.beatLeft n.val actCarve →
       s.dev.tempo.scrubs.find? (fun y => y.inst = n.val) = some x → s.dev.coh.txns = [] →
       let lo := unitBase x.unit / 64 + x.next
       let hi := min (unitBase x.unit / 64 + 16777216) (lo + s.dev.scrubStride x)
       let mine (l : Nat) : Prop := lo ≤ l ∧ l < hi ∧ s.dev.home (64 * l) = n.val
       ∃ t, exec (.carveOutScrub n) s = .next t
         ∧ (∀ a, memGet t.dev.mem a = if lo ≤ a / 64 ∧ a / 64 < hi ∧ s.dev.home (64 * (a / 64)) = n.val then 0 else memGet s.dev.mem a)
         ∧ (∀ l, mine l → t.dev.isPoisoned l = false ∧ l ∉ t.dev.hbm.bad ∧ l ∉ t.dev.hbm.weak)
         ∧ (∀ l, ¬ mine l → t.dev.isPoisoned l = s.dev.isPoisoned l)
         ∧ t.dev.cores = s.dev.cores ∧ t.dev.queues = s.dev.queues)
     ∧ (∀ (s : State) (n : Fin 13) (line : BitVec 46), s.dev.halted = false →
       let d0 := s.dev.spent n.val actSnoop (beatLines n.val)
       (s.dev.beatLeft n.val actSnoop < beatLines n.val → ∀ x, exec (.snoopFilterMaintenance n x) s = .next s)
       ∧ (beatLines n.val ≤ s.dev.beatLeft n.val actSnoop → exec (.snoopFilterMaintenance n none) s = .next (s.withDev d0)
         ∧ (isMemory (64 * line.toNat) = true → s.dev.home (64 * line.toNat) = n.val →
           exec (.snoopFilterMaintenance n (some line)) s = .next (s.withDev
             (d0.setCoh { s.dev.coh with suspect := insertNat s.dev.coh.suspect line.toNat }))))))

/-- R217 to R219: a walk that meets a leaf node whose last entry at or below the page is LINEAR and covers it, in memory, answers with the
address BASE + (page - START) and the rights READ, WRITE and ATOMIC of that entry; a page past the entry's end is NOT_MAPPED. R219, R225 to
R228: a walk with a walker that finds a translation that grants its stream caches it and ends; one that finds none writes the fault and leaves its stream
stalled on the key. A freed entry gives the first waiting fault its record. RETRY resolves the record's key, so that its streams walk again;
FAIL resolves it and fails their commands. CONS moves only up to PROD. -/
def Obligations.TranslationResult : Prop :=
  (∀ (d : Dev) (p ctx page i : Nat),
     let desc := d.ctxAt p ctx + 64
     let node := natBitsAt (leNat (d.peek desc 8).1) 0 40 * 4096
     let h := leNat (d.peek node 8).1
     let word (w : Nat) : Nat := d.peekWord (node + 32 * i + 8 * w)
     (d.peek desc 8).2 = false → (d.peek node 8).2 = false → 0 < natBitsAt h 0 8 → natBitsAt h 0 8 ≤ 127 → h.testBit 8 = true →
     lastSlot (fun i => natBitsAt (d.peekWord (node + 32 * i)) 0 45) page (natBitsAt h 0 8) = some i →
     (∀ n ∈ nodeLines node (natBitsAt h 0 8) (some i), (d.peek (64 * n) 64).2 = false) →
     let start := natBitsAt (word 0) 0 45
     let len := natBitsAt (word 1) 0 45
     let base := natBitsAt (word 2) 0 40
     (page ≥ start + len → (d.walk p ctx page).1 = .fault causeNotMapped)
     ∧ (page < start + len → start + len ≤ 2 ^ 45 → natBitsAt (word 3) 0 2 = 0 → isMemory (base * 4096) = true →
         (base + len) * 4096 ≤ (if isHbm (base * 4096) = true then hbmEnd else lpEnd) →
         ∃ x, (d.walk p ctx page).1 = .entry x ∧ x.covers ctx page = true ∧ x.window = none
           ∧ (∀ off < 4096, x.phys (page * 4096 + off) = base * 4096 + (page - start) * 4096 + off)
           ∧ x.read = (word 3).testBit 2 ∧ x.write = (word 3).testBit 3 ∧ x.atomic = (word 3).testBit 4))
  ∧ ((∀ (s : State) (tile : Fin 49) (ctx : BitVec 12) (page : BitVec 45) (w : Walk) (p : Nat) (d1 : Dev), s.dev.halted = false →
       let d := s.dev
       d.walks.find? (fun w => w.tile = tile.val ∧ w.ctx = ctx.toNat ∧ w.page = page.toNat ∧ w.fault = none ∧ d.walking w = true) = some w →
       d.ctxPart ctx.toNat = some p →
       d.walkReads (d.walkRq tile.val p ctx.toNat) (d.walk p ctx.toNat page.toNat).2.eraseDups = some d1 →
       (∀ x, (d.walk p ctx.toNat page.toNat).1 = .entry x → (∀ st ∈ w.streams, x.grants st.access = true) →
         exec (.walkComplete tile ctx page) s = .next (s.withDev ((d1.cacheXent tile.val x).putWalk w { w with streams := [] })))
       ∧ (∀ st, w.streams = [st] → (d.walk p ctx.toNat page.toNat).1 = .fault causeNotMapped →
         exec (.walkComplete tile ctx page) s = .next (s.withDev
           ((d1.putWalk w { w with fault := some (causeNotMapped, w.page, 1) }).streamFault p w.ctx causeNotMapped w.page 1 true st)))
       ∧ (∀ st cause, w.streams = [st] → (d.walk p ctx.toNat page.toNat).1 = .fault cause → cause ≠ causeNotMapped →
         exec (.walkComplete tile ctx page) s = .next (s.withDev
           (((d1.putWalk w { w with streams := [] }).streamFault p w.ctx cause 0 0 false st).failStream st))))
     ∧ (∀ (s : State) (p : Fin 48), s.dev.halted = false →
       let d := s.dev
       ((d.part p.val).waitFaults = [] → exec (.faultEntryFreed p) s = .next s)
       ∧ (∀ f rest, (d.part p.val).waitFaults = f :: rest →
         let d1 := d.setPart p.val { d.part p.val with waitFaults := rest }
         (d.fqUsed p.val + 2 ≤ d.fqSize p.val →
           exec (.faultEntryFreed p) s = .next (s.withDev (((d1.fqPush p.val f.words).track p.val f (d.fqProd p.val)).fqStalled p.val)))
         ∧ (d.fqSize p.val < d.fqUsed p.val + 2 → exec (.faultEntryFreed p) s = .next s)))
     ∧ (∀ (s : State) (p : Fin 48) (record : W32) (r : FaultRec), s.dev.halted = false → s.dev.pendingRecord p.val record.toNat = some r →
       ∃ t, exec (.xltFqResolveRetry p record) s = .next t
         ∧ (∀ x ∈ (t.dev.part p.val).pendFaults, ¬(x.ctx = r.ctx ∧ x.cause = r.cause ∧ x.span = r.span ∧ x.spanPages = r.spanPages))
         ∧ (∀ w ∈ t.dev.walks, w.ctx = r.ctx → w.fault ≠ some (r.cause, r.span, r.spanPages))
         ∧ t.dev.walks.map (fun w => (w.tile, w.ctx, w.page, w.streams)) = s.dev.walks.map (fun w => (w.tile, w.ctx, w.page, w.streams))
         ∧ t.dev.mem = s.dev.mem ∧ t.dev.queues = s.dev.queues ∧ t.dev.cores = s.dev.cores)
     ∧ (∀ (s : State) (p : Fin 48) (record : W32) (r : FaultRec), s.dev.halted = false → s.dev.pendingRecord p.val record.toNat = some r →
       let ws := s.dev.keyWalks r.ctx r.cause r.span r.spanPages
       exec (.xltFqResolveFail p record) s = .next (s.withDev ((ws.flatMap Walk.streams).foldl Dev.failStream
         (({ s.dev with walks := s.dev.walks.filter fun w => w ∉ ws } : Dev).resolveKey p.val r.ctx r.cause r.span r.spanPages))))
     ∧ (∀ (s : State) (p : Fin 48) (record : W32), s.dev.pendingRecord p.val record.toNat = none →
       exec (.xltFqResolveRetry p record) s = .next s ∧ exec (.xltFqResolveFail p record) s = .next s)
     ∧ (∀ (s : State) (p : Fin 48) (cons : W32), s.dev.halted = false →
       ((cons.toNat + 2 ^ 32 - s.dev.fqCons p.val) % 2 ^ 32 ≤ s.dev.fqUsed p.val →
         exec (.xltFqConsWrite p cons) s = .next (s.withDev (s.dev.set fXltFqConsCons cons.toNat p.val)))
       ∧ (s.dev.fqUsed p.val < (cons.toNat + 2 ^ 32 - s.dev.fqCons p.val) % 2 ^ 32 → exec (.xltFqConsWrite p cons) s = .next s)))

/-- R226, R229 to R231, R336 to R338: an access of another module through a window whose entry is VALID, covers its offset, grants its
kind, and matches its key and module is made at BASE + offset for OWNER and answered; any other is counted and refused. XLT_WIN_INVAL drops
the cached entry and reads busy until the accesses under it are done. An acknowledgement ends a request that waits for one; a refusal ends
its command with RANGE_FAULT. -/
def Obligations.WindowResult : Prop :=
  (∀ (s : State) (window : BitVec 16), s.dev.halted = false →
    (∃ t, exec (.xltWinInval window) s = .next t ∧ smapGet? t.dev.reel.winCache window.toNat = none ∧ t.dev.get fXltWinStatBusy = 1
      ∧ t.dev.get fXltWinStatRefused = s.dev.get fXltWinStatRefused ∧ t.dev.mem = s.dev.mem)
    ∧ ((∀ a ∈ s.dev.reel.arrivals, ∀ x ∈ a.waiting, x.stale = false) →
      ∃ t, exec .windowInvalDrained s = .next t ∧ t.dev.get fXltWinStatBusy = 0 ∧ t.dev.reel = s.dev.reel ∧ t.dev.mem = s.dev.mem)
    ∧ (∀ a ∈ s.dev.reel.arrivals, ∀ x ∈ a.waiting, x.stale = true → exec .windowInvalDrained s = .next s))
  ∧ (∀ (e : List W64) (src off key : Nat) (read write atomic : Bool) (pa owner : Nat),
    let w (i : Nat) : Nat := (e.getD i 0).toNat
    admitWindow e src off key read write atomic = some (pa, owner) ↔
      (w 2).testBit 9 = true ∧ off < natBitsAt (w 1) 0 45 * 4096 ∧ (read = true → (w 2).testBit 6 = true)
        ∧ (write = true → (w 2).testBit 7 = true) ∧ (atomic = true → (w 2).testBit 8 = true) ∧ natBitsAt (w 2) 32 32 = key
        ∧ (natBitsAt (w 2) 16 12 = 0xFFF ∨ natBitsAt (w 2) 16 12 = src) ∧ natBitsAt (w 2) 0 6 < 48
        ∧ pa = natBitsAt (w 0) 0 40 * 4096 + off ∧ owner = natBitsAt (w 2) 0 6)
  ∧ (∀ (s : State) (src : BitVec 12) (window : BitVec 16) (off : W64) (key id : W32) (pa owner : Nat) (d1 : Dev), s.dev.halted = false →
    let admits (r w a : Bool) (x : Option (Nat × Nat)) : Prop :=
      s.dev.admitRemote src.toNat window.toNat off.toNat key.toNat r w a = (x, d1)
    let rq : Rq := receiverRq owner
    let answers (d : Dev) (kind : Nat) (ws : List Nat) := Host.Outcome.next (φ := Fault) (ρ := Refusal)
      (s.withDev (d.emit (.reel src.toNat kind ws)))
    (∀ n bs bad d2, admits true false false (some (pa, owner)) → Dev.pocBytes rq pa n d1 = some ((bs, bad), d2) →
      exec (.remoteWindowAccess src window off key (.read n) id) s = answers d2 reelAnswer [id.toNat, leNat bs, if bad then 1 else 0])
    ∧ (∀ bs d2, admits false true false (some (pa, owner)) → Dev.pocStore rq pa bs d1 = some d2 →
      exec (.remoteWindowAccess src window off key (.write bs) id) s = answers d2 reelAck [id.toNat])
    ∧ (∀ aop wide v c old bad d2, admits false false true (some (pa, owner)) →
      Dev.pocAtomic rq pa aop.toNat wide v.toNat c.toNat d1 = some ((old, bad), d2) →
      exec (.remoteWindowAccess src window off key (.atomic aop wide v c) id) s
        = answers d2 reelAnswer [id.toNat, old, if bad then 1 else 0])
    ∧ (∀ bs, admits false true false (some (pa, owner)) → Dev.pocStore rq pa bs d1 = none →
      exec (.remoteWindowAccess src window off key (.write bs) id) s = answers d1 reelRetry [id.toNat])
    ∧ (∀ n, admits true false false (some (pa, owner)) → Dev.pocBytes rq pa n d1 = none →
      exec (.remoteWindowAccess src window off key (.read n) id) s = answers d1 reelRetry [id.toNat])
    ∧ (∀ op, admits ((remoteAsks op).testBit 0) ((remoteAsks op).testBit 1) ((remoteAsks op).testBit 2) none →
      exec (.remoteWindowAccess src window off key op id) s
        = .next (s.withDev (d1.refuseRemote src.toNat window.toNat off.toNat id.toNat))))
  ∧ (∀ (s : State) (id : W32) (m : Remote), s.dev.halted = false → s.dev.remote? id.toNat = some m →
    (((∃ a, m.kind = .write a) ∨ (∃ op, m.kind = .fence op) ∨ m.kind = .segment) →
      exec (.remoteAccessAck id) s = .next (s.withDev (s.dev.dropRemote id.toNat)))
    ∧ (∀ op, m.kind = .fence op → exec (.windowAccessRefused id) s = .next (s.withDev (s.dev.signalLost m)))
    ∧ (∀ c, (∀ op, m.kind ≠ .fence op) → s.dev.cmd? m.q m.slot = some c → c.st = .running → c.sent = none → c.kill = none → m.part < 48 →
      (s.dev.part m.part).waitFaults = [] → s.dev.fqUsed m.part + 2 ≤ s.dev.fqSize m.part →
      ∃ t, exec (.windowAccessRefused id) s = .next t ∧ t.dev.remote? id.toNat = none
        ∧ t.dev.cmd? m.q m.slot = some { c with sent := some (.ends errRangeFault) }
        ∧ t.dev.fqProd m.part = (s.dev.fqProd m.part + 1) % 2 ^ 32))

/-- R253 to R255, R221, R222, R254, R344: a KERNEL at work starts its next troupe on an idle unit of its own. A FILL writes byte a mod 8 of
its pattern at each address a, a COPY the source's bytes, to one line when they fit in one, and a destination outside OUT ends them with
OUTSIDE_OUTPUTS. A MARKER writes its sampled counter. A RANGE.SYNC whose span holds an output or a fence of its context is refused; else no
cached translation of the span is left. The ordered reduction folds widened contributions from rank 0 upward and narrows once. -/
def Obligations.CommandWorkResult : Prop :=
  (∀ (s : State) (q : Fin 16384) (slot : W32) (c : Cmd) (j : KernelJob) (u : List Nat), s.dev.halted = false →
    let d1 := s.dev.reapTroupes q.val slot.toNat
    d1.runs? q.val slot.toNat = some c → c.body = .kernel j → j.units = [u] → j.next < j.troupes →
    (∀ k ∈ u, (d1.core k).run = none ∧ (d1.core k).takesGroups = true ∧ d1.tileUp (k / 16) = true) →
    exec (.kernel q slot) s = .next (s.withDev (d1.startTroupe q.val c j u Dev.flushNear)))
  ∧ (∀ (s : State) (q : Fin 16384) (slot : W32) (c : Cmd) (t n va pa : Nat) (v : W64) (d1 d2 : Dev), s.dev.halted = false →
    let st := s.dev.stream t q.val slot.toNat
    let rq : Rq := s.dev.channelRq st
    s.dev.runs? q.val slot.toNat = some c → s.dev.copyTile q.val = some t → c.body = .fill v va n 1 0 0 → 0 < n → va % 64 + n ≤ 64 →
    va < 2 ^ 57 → c.covers { va := va, rb := n, rows := 1, stride := 0 } = true →
    s.dev.place st va n true = (.at_ (.memory pa), d1) → Dev.pocStore rq pa (fillBytes v va n) d1 = some d2 →
    exec (.fill q slot) s = .next (s.withDev (d2.putMoved q.val slot.toNat n))
      ∧ ∀ i < n, (fillBytes v va n)[i]? = some (BitVec.ofNat 8 (natBitsAt v.toNat (8 * ((va + i) % 8)) 8)))
  ∧ (∀ (s : State) (q : Fin 16384) (slot : W32) (c : Cmd) (t n src dst pa pb : Nat) (l : Line) (d1 d2 d3 d4 : Dev), s.dev.halted = false →
    let st := s.dev.stream t q.val slot.toNat
    let rq : Rq := s.dev.channelRq st
    s.dev.runs? q.val slot.toNat = some c → s.dev.copyTile q.val = some t → c.body = .copy src dst n 1 0 0 0 → 0 < n →
    src % 64 + n ≤ 64 → dst % 64 + n ≤ 64 → src < 2 ^ 57 → dst < 2 ^ 57 → s.dev.fromWindow st src = false →
    c.covers { va := dst, rb := n, rows := 1, stride := 0 } = true →
    Rows.meets { va := src, rb := n, rows := 1, stride := 0 } { va := dst, rb := n, rows := 1, stride := 0 } = false →
    s.dev.place st dst n true = (.at_ (.memory pb), d1) → d1.place st src n false = (.at_ (.memory pa), d2) →
    Dev.pocRead rq (pa / 64) d2 = some ((l, false), d3) → Dev.pocStore rq pb (leBytes n (lineField l (pa % 64) n)) d3 = some d4 →
    exec (.copy q slot) s = .next (s.withDev (d4.putMoved q.val slot.toNat n)))
  ∧ (∀ (s : State) (q : Fin 16384) (slot : W32) (c : Cmd) (t : Nat), s.dev.halted = false → s.dev.runs? q.val slot.toNat = some c →
    s.dev.copyTile q.val = some t →
    (∀ src dst rb rows ss ds i, c.body = .copy src dst rb rows ss ds i → c.covers { va := dst, rb := rb, rows := rows, stride := ds } = false →
      exec (.copy q slot) s = .next (s.withDev (s.dev.raise q.val slot.toNat errOutside)))
    ∧ (∀ v dst rb rows ds i, c.body = .fill v dst rb rows ds i → c.covers { va := dst, rb := rb, rows := rows, stride := ds } = false →
      exec (.fill q slot) s = .next (s.withDev (s.dev.raise q.val slot.toNat errOutside))))
  ∧ (∀ (s : State) (q : Fin 16384) (slot : W32) (c : Cmd) (va pa : Nat) (v : W64) (d1 d2 : Dev), s.dev.halted = false →
    let st := s.dev.stream callerTile q.val slot.toNat
    s.dev.runs? q.val slot.toNat = some c → c.body = .marker (some va) v false → va < 2 ^ 57 →
    s.dev.place st va 8 true = (.at_ (.memory pa), d1) → Dev.pocStore (s.dev.callerRq st.part st.ctx) pa (leBytes 8 v.toNat) d1 = some d2 →
    exec (.marker q slot) s = .next (s.withDev (d2.putCmd q.val { c with body := .marker (some va) v true })))
  ∧ (∀ (s : State) (q : Fin 16384) (slot : W32) (c : Cmd) (seq : W64) (page pages : Nat) (root : Option Nat), s.dev.halted = false →
    let x := s.dev.queue q.val
    s.dev.runs? q.val slot.toNat = some c → c.body = .rangeSync seq page pages root false false → 0 < pages → x.part < 48 →
    (s.dev.syncRefused x.ctx page pages = true →
      exec (.rangeSync q slot) s = .next (s.withDev (s.dev.raise q.val slot.toNat errRangeFault)))
    ∧ (s.dev.syncRefused x.ctx page pages = false → ∃ t, exec (.rangeSync q slot) s = .next t
        ∧ ∀ tile ∈ callerTile :: s.dev.tiles x.part, ∀ y ∈ t.dev.rcacheOf tile,
            ¬(y.ctx = x.ctx ∧ y.page < page + pages ∧ page < y.page + y.pages))
    ∧ (s.dev.syncRefused x.ctx page pages = false → s.dev.spanAway x.ctx page pages = false →
      ∃ t, exec (.rangeSync q slot) s = .next t
        ∧ t.dev.cmd? q.val slot.toNat = some { c with body := .rangeSync seq page pages root true true }))
  ∧ (∀ (s : State) (q : Fin 16384) (slot : W32) (c : Cmd) (j : CollJob), s.dev.halted = false → s.dev.runs? q.val slot.toNat = some c →
    c.body = .collective j →
    let st := s.dev.stream callerTile q.val slot.toNat
    (let r := Dev.collWork st j s.dev
     exec (.collective q slot) s = .next (s.withDev ((if r.1.done = true then r.2.finishArrivals r.1 else r.2).putColl q.val slot.toNat r.1)))
    ∧ (∀ stg, j.staging = some stg → s.dev.staged j = false → exec (.orderedCombine q slot) s = .next s)
    ∧ (∀ stg, j.staging = some stg → s.dev.staged j = true →
      let x := Dev.combineSome st (j.rq st) j stg j.combineLen j.combined s.dev
      exec (.orderedCombine q slot) s = .next (s.withDev (x.2.putColl q.val slot.toNat { j with combined := x.1 }))))
  ∧ (∀ op ty a b c, collOrdered op ty [a, b, c] = collNarrow ty
      (collCombine op ty (accFmt ty) (collCombine op ty (accFmt ty) (collWiden ty a) (collWiden ty b)) (collWiden ty c)))

/-- R237, R238, R243 to R249, R261, R266, R278, R306: CREATE makes a FREE queue what its descriptor says and answers REFUSED where it cannot;
while its reads wait for lines or tokens BUSY stays 1. DESTROY of a queue without commands leaves it FREE; ABORT of a slot not read yet answers
NOT_PRESENT and otherwise sends the command's kill.
A doorbell write that reaches the module with the queue's tags moves TAIL or sets BAD_TAIL, and without them counts in FOREIGN; RESUME makes a
STOPPED queue ACTIVE. SLOT_READ takes the announced slot at HEAD, up to its first poisoned line; it walks for a page it lacks, and a ring that
cannot be read stops the queue. CLR_FENCE_POST stores its error, or waits for its fence; a block is written only while its partition is FREE,
and where it meets no other partition's. -/
def Obligations.QueueControlResult : Prop :=
  (∀ (s : State) (p : Fin 48) (q : BitVec 14) (slot : W32), s.dev.halted = false →
    let d := s.dev
    let x := d.queue q.toNat
    let ends (r : Nat) := Host.Outcome.next (φ := Fault) (ρ := Refusal) (s.withDev (d.qctlDone p.val r))
    (d.get fClrQctlStatBusy p.val = 1 → exec (.create p q) s = .next s ∧ exec (.destroy p q) s = .next s ∧ exec (.abort p q slot) s = .next s)
    ∧ (d.get fClrQctlStatBusy p.val = 0 →
      ((d.takesOps p.val = false ∨ d.qIn p.val q.toNat = false ∨ x.st ≠ .free) → exec (.create p q) s = ends 1)
      ∧ (d.takesOps p.val = true → d.qIn p.val q.toNat = true → x.st = .free →
          let reads := Dev.pocLines (d.callerRq p.val (d.createReads p.val q.toNat).1) (d.createReads p.val q.toNat).2 d
          (∀ ls d1, reads = some (ls, d1) →
            (∀ y, d1.queueOf p.val q.toNat = some y → exec (.create p q) s = .next (s.withDev ((d1.setQueue q.toNat y).qctlDone p.val 0)))
            ∧ (d1.queueOf p.val q.toNat = none → exec (.create p q) s = .next (s.withDev (d1.qctlDone p.val 1))))
          ∧ (reads = none → exec (.create p q) s = .next (s.withDev
              ((d.set fClrQctlStatBusy 1 p.val).setPart p.val { d.part p.val with qop := some (.create q.toNat) }))))
      ∧ ((d.takesOps p.val = false ∨ d.qIn p.val q.toNat = false ∨ x.st = .free ∨ x.st = .destroying) →
          exec (.destroy p q) s = ends 1 ∧ exec (.abort p q slot) s = ends 1)
      ∧ (d.takesOps p.val = true → d.qIn p.val q.toNat = true → x.st ≠ .free → x.st ≠ .destroying →
          (x.cmds = [] → x.part = p.val → ∃ t, exec (.destroy p q) s = .next t ∧ (t.dev.queue q.toNat).st = .free
            ∧ t.dev.get fClrQctlStatBusy p.val = 0 ∧ t.dev.get fClrQctlStatResult p.val = 0)
          ∧ (x.wasRead slot.toNat = false → exec (.abort p q slot) s = ends 4)
          ∧ (x.wasRead slot.toNat = true → d.cmd? q.toNat slot.toNat = none → exec (.abort p q slot) s = ends (x.retiredResult slot.toNat))
          ∧ (∀ c, x.wasRead slot.toNat = true → d.cmd? q.toNat slot.toNat = some c →
            exec (.abort p q slot) s = .next (s.withDev
              (((d.set fClrQctlStatBusy 1 p.val).setPart p.val { d.part p.val with qop := some (.abort q.toNat slot.toNat false) }).sendKill
                q.toNat slot.toNat (.ends errKilledAbort)))))))
  ∧ (∀ (s : State) (src : Source) (q : Fin 16384) (tail : W32), s.dev.halted = false →
    let d := s.dev
    let x := d.queue q.val
    (x.st = .free ∨ d.arrives src = false → exec (.clrDbTailWrite src q tail) s = .next s ∧ exec (.resume src q) s = .next s)
    ∧ (x.st ≠ .free → d.arrives src = true →
      (d.tagsOf src ≠ some (x.part, x.ctx) →
        let counted := s.withDev (d.setQueue q.val { x with foreign := BitVec.ofNat 32 (min (2 ^ 32 - 1) (x.foreign.toNat + 1)) })
        exec (.clrDbTailWrite src q tail) s = .next counted ∧ exec (.resume src q) s = .next counted)
      ∧ (d.tagsOf src = some (x.part, x.ctx) → x.st = .destroying ∨ d.partState x.part ≠ partActive →
        exec (.clrDbTailWrite src q tail) s = .next s ∧ exec (.resume src q) s = .next s)
      ∧ (d.tagsOf src = some (x.part, x.ctx) → x.st ≠ .destroying → d.partState x.part = partActive →
        let rel := (tail - x.head).toNat
        ((2 ^ x.log2 < rel ∨ (x.st = .active ∧ rel < (x.tail - x.head).toNat)) →
          exec (.clrDbTailWrite src q tail) s = .next (s.withDev (d.setQueue q.val { x with badTail := true })))
        ∧ (rel ≤ 2 ^ x.log2 → (x.st = .stopped ∨ (x.tail - x.head).toNat ≤ rel) →
          exec (.clrDbTailWrite src q tail) s = .next (s.withDev (d.setQueue q.val { x with tail := tail })))
        ∧ (x.st = .active → exec (.resume src q) s = .next (s.withDev (d.setQueue q.val x)))
        ∧ (x.st = .stopped → exec (.resume src q) s = .next (s.withDev (d.setQueue q.val { x with st := .active, stopCode := 0 }))))))
  ∧ (∀ (s : State) (q : Fin 16384), s.dev.halted = false →
    let d := s.dev
    let x := d.queue q.val
    ((x.st ≠ .active ∨ x.head = x.tail ∨ 16 ≤ (x.head - x.retired).toNat ∨ d.partState x.part ≠ partActive) →
      exec (.slotRead q) s = .next s)
    ∧ (x.st = .active → x.head ≠ x.tail → (x.head - x.retired).toNat < 16 → d.partState x.part = partActive →
      let va := x.ring + 128 * (x.head.toNat % 2 ^ x.log2)
      let found := d.lookup callerTile x.ctx (va / 4096) .read
      (2 ^ 57 ≤ va → exec (.slotRead q) s = .next (s.withDev (d.ringFault q.val)))
      ∧ (va < 2 ^ 57 →
        (found = none → exec (.slotRead q) s = .next (s.withDev (d.miss callerTile x.ctx (va / 4096)
          { q := q.val, slot := x.head.toNat, slotRead := true, who := none, access := .read, fill := false, va := va })))
        ∧ (∀ t w, found = some t → t.window = some w → exec (.slotRead q) s = .next (s.withDev (d.ringFault q.val)))
        ∧ (∀ t, found = some t → t.window = none →
          let reads := Dev.pocLines (d.callerRq x.part x.ctx) (linesOf (t.phys va) 128) d
          (reads = none → exec (.slotRead q) s = .next s)
          ∧ (∀ ls d1, reads = some (ls, d1) →
            let good := ls.takeWhile fun l => l.2 = false
            let ws := (wordsOf (good.flatMap fun l => lineBytes l.1) (8 * good.length)).map (BitVec.ofNat 64)
            exec (.slotRead q) s = .next (s.withDev (d1.setQueue q.val { d1.queue q.val with
              head := (d1.queue q.val).head + 1, cmds := (d1.queue q.val).cmds ++ [Cmd.held (d1.queue q.val).head.toNat ws] })))))))
  ∧ (∀ (s : State) (p : Fin 48) (ctx : BitVec 12) (code : BitVec 16), s.dev.halted = false →
    let d := s.dev
    (d.get fClrFencePostStatBusy p.val = 1 → exec (.clrFencePost p ctx code) s = .next s)
    ∧ (d.get fClrFencePostStatBusy p.val = 0 →
    let posts : Prop := (d.part p.val).reinit = none ∧ (code.toNat = errProducerLost ∨ code.toNat = errPartitionReset) ∧ d.ctxIn p.val ctx.toNat = true
    (¬ posts → exec (.clrFencePost p ctx code) s = .next (s.withDev (d.postDone p.val 1)))
    ∧ (posts → d.fenceOf p.val ctx.toNat (d.get fClrFencePostVaVa p.val * 64) = none →
        exec (.clrFencePost p ctx code) s = .next (s.withDev (d.postDone p.val 1)))
    ∧ (∀ pl, posts → d.fenceOf p.val ctx.toNat (d.get fClrFencePostVaVa p.val * 64) = some pl →
        let op : FenceOp := .error pl code.toNat 0 0 true
        (∀ d1, d.deliverFence p.val op = some d1 → exec (.clrFencePost p ctx code) s = .next (s.withDev (d1.postDone p.val 0)))
        ∧ (d.deliverFence p.val op = none →
          exec (.clrFencePost p ctx code) s = .next (s.withDev ((d.queueError p.val op).set fClrFencePostStatBusy 1 p.val))))))
  ∧ (∀ (s : State) (p : Fin 48) (v : W64), s.dev.halted = false →
    (s.dev.partState p.val ≠ partFree → exec (.clrQRangeWrite p true v) s = .next s ∧ exec (.clrQRangeWrite p false v) s = .next s)
    ∧ (s.dev.blockTaken p.val false (natBitsAt v.toNat 0 14) (natBitsAt v.toNat 14 15) = true → exec (.clrQRangeWrite p false v) s = .next s)
    ∧ (s.dev.blockTaken p.val true (natBitsAt v.toNat 0 12) (natBitsAt v.toNat 12 13) = true → exec (.clrQRangeWrite p true v) s = .next s)
    ∧ (s.dev.partState p.val = partFree → s.dev.blockTaken p.val false (natBitsAt v.toNat 0 14) (natBitsAt v.toNat 14 15) = false →
      ∃ t, exec (.clrQRangeWrite p false v) s = .next t ∧ t.dev.qFirst p.val = natBitsAt v.toNat 0 14
        ∧ t.dev.get fClrQRangeCount p.val = natBitsAt v.toNat 14 15 ∧ t.dev.mem = s.dev.mem)
    ∧ (s.dev.partState p.val = partFree → s.dev.blockTaken p.val true (natBitsAt v.toNat 0 12) (natBitsAt v.toNat 12 13) = false →
      ∃ t, exec (.clrQRangeWrite p true v) s = .next t ∧ t.dev.ctxFirst p.val = natBitsAt v.toNat 0 12
        ∧ t.dev.ctxCount p.val = natBitsAt v.toNat 12 13 ∧ t.dev.mem = s.dev.mem))

/-- R256 to R265, R274, R275, R279 to R283, R297 to R299: a HELD command whose reads find their tokens and whose checks pass is
dispatched, and ends with the code of its first failed check otherwise. A READY command that its queue lets run takes sets of free engines.
Pre-emption, a spent slice and timeouts send kills; an engine silent after a drain order is ordered to stop, and one that acknowledges no
order re-initialises the partition. A WAIT goes on at its target, ends on an error, and waits otherwise. A command whose work is done asks to
commit. A fence takes its partition's oldest signal or error store. -/
def Obligations.CommandLifeResult : Prop :=
  ∀ (s : State) (q : Fin 16384) (slot : W32) (c : Cmd), s.dev.halted = false → s.dev.cmd? q.val slot.toNat = some c →
    let d := s.dev
    let k := slot.toNat
    let x := d.queue q.val
    let p := x.part
    (∀ body outs fence chk ls d1, x.mayDispatch c = true →
      let c1 : Cmd := { c with
        st := .dispatch
        seq := if c.type = tyKernel ∧ c.seq = none then some (BitVec.ofNat 64 (d.nextSeq p x.ctx c.stream)) else c.seq }
      let d0 := d.putCmd q.val c1
      d0.examine x c1 = (body, outs, fence, chk) →
      (chk.misses ≠ [] → chk.poison = false → exec (.commandDispatch q slot) s = .next (s.withDev (chk.misses.foldl (fun d va =>
        d.miss callerTile x.ctx (va / 4096)
          { q := q.val, slot := k, slotRead := false, who := none, access := .read, fill := false, va := va }) d0)))
      ∧ ((chk.misses = [] ∨ chk.poison = true) →
        let reads := Dev.pocLines (d0.callerRq p x.ctx) chk.lines.eraseDups d0
        (reads = none → exec (.commandDispatch q slot) s = .next (s.withDev d0))
        ∧ (reads = some (ls, d1) →
          (chk.code = none → exec (.commandDispatch q slot) s = .next (s.withDev (d1.dispatched q.val c1 body outs fence)))
          ∧ (∀ e, chk.code = some e →
            let d2 := chk.tables.foldl (fun d va => d.errorRecord p q.val causeTable va (accessBits .write) false) d1
            exec (.commandDispatch q slot) s = .next (s.withDev ((d2.putCmd q.val { c1 with fence := fence }).endCmd q.val k e))))))
    ∧ (x.mayDispatch c = false → exec (.commandDispatch q slot) s = .next s)
    ∧ (d.stranded q.val c = false → x.mayRun c = true → d.grantable q.val c ≠ [] → 0 < c.wants →
      let sets := (d.grantable q.val c).take c.wants
      exec (.engineGrant q slot) s = .next (s.withDev (d.tick.putCmd q.val { c with
        st := .running, runningAt := d.clock + 1, walk := d.walkThrough p, body := d.enterBody p sets c.body,
        engines := sets.flatten.map fun e => { eng := e, order := .none, acked := false } })))
    ∧ (d.stranded q.val c = false → (x.mayRun c = false ∨ d.grantable q.val c = []) → exec (.engineGrant q slot) s = .next s)
    ∧ (d.stranded q.val c = true → exec (.engineGrant q slot) s = .next (s.withDev (d.endCmd q.val k errDeviceLost)))
    ∧ (x.mayRun c = true → d.grantable q.val c = [] → (d.engineSets q.val c).any (d.freeAfter []) = false → exec (.preemptionKill q slot) s = .next (s.withDev
        ((d.pickVictims q.val c [] (d.victims q.val c)).foldl (fun d v => d.sendKill v.2.1 v.2.2.slot .preempt) d)))
    ∧ ((x.mayRun c = false ∨ d.grantable q.val c ≠ [] ∨ (d.engineSets q.val c).any (d.freeAfter []) = true) → exec (.preemptionKill q slot) s = .next s)
    ∧ (∀ q2 c2, x.prio = 2 → d.get fPrtSchedSlice p ≠ 0 → d.preemptible q.val c = true → (q2, c2) ∈ d.allCmds →
        (d.queue q2).part = p → (d.queue q2).prio = 2 → (d.queue q2).ctx ≠ x.ctx → (d.queue q2).mayRun c2 = true →
        d.grantable q2 c2 = [] → (∃ e ∈ (d.engineSets q2 c2).flatten, ∃ r ∈ c.engines, r.eng = e) →
        exec (.sliceExpiry q slot) s = .next (s.withDev (d.putCmd q.val { c with sent := some .preempt })))
    ∧ ((x.prio ≠ 2 ∨ d.get fPrtSchedSlice p = 0 ∨ d.preemptible q.val c = false) → exec (.sliceExpiry q slot) s = .next s)
    ∧ (x.execTimeout ≠ 0 → (c.st = .running ∨ c.st = .committing) → exec (.execTimeoutExpiry q slot) s = .next (s.withDev
        ((d.order q.val k .drain).sendKill q.val k (.ends 0x0101))))
    ∧ (x.execTimeout = 0 → exec (.execTimeoutExpiry q slot) s = .next s)
    ∧ (∀ i e, c.engines[i]? = some e → e.acked = false →
        (e.order = .drain → exec (.drainAckTimeout q slot i) s
          = .next (s.withDev (d.putCmd q.val { c with engines := c.engines.set i { e with order := .kill } })))
        ∧ (e.order ≠ .drain → exec (.drainAckTimeout q slot i) s = .next s)
        ∧ (e.order ≠ .none → (d.part p).qop = none → d.partState p ≠ partDissolving →
          exec (.killAckTimeout q slot i) s = .next (s.withDev (d.startReinit p 1 (d.engineSite e.eng) [])))
        ∧ (e.order ≠ .none → exec (.engineAck q slot i) s = .next (s.withDev
          (((d.putCmd q.val { c with engines := c.engines.set i { e with acked := true } }).clearEngine x.ctx
            c.preempted e.eng).settleKill q.val k)))
        ∧ (e.order = .none → exec (.killAckTimeout q slot i) s = .next s ∧ exec (.engineAck q slot i) s = .next s))
    ∧ (x.waitTimeout ≠ 0 → c.st = .waiting → c.sent = none → c.kill = none → exec (.waitTimeoutExpiry q slot) s = .next (s.withDev
        ((d.putCmd q.val { c with sent := some (.ends 0x0102) }).killArrives q.val k)))
    ∧ (x.waitTimeout = 0 → exec (.waitTimeoutExpiry q slot) s = .next s)
    ∧ (∀ va pa target, c.body = .wait va (.local_ pa) target → c.st = .waiting → c.sent = none → (d.peekLine (pa / 64)).2 = false → pa / 64 ∉ d.hbm.bad →
      let line := (d.peekLine (pa / 64)).1
      let d1 := if (lineWord line 1).testBit 16 then d.endCmd q.val c.slot errUpstream
        else if target.toNat ≤ lineWord line 0 then d.makeReady q.val c
        else d.putCmd q.val { c with st := .waiting, watch := c.watch || d.watches < 65536 }
      exec (.wait q slot) s = .next (s.withDev d1)
      ∧ (c.watch = true → exec (.waitRelease q slot) s = .next (s.withDev d1) ∧ exec (.fenceReread q slot) s = .next s)
      ∧ (c.watch = false → exec (.waitRelease q slot) s = .next s
        ∧ (∀ l d2, d.pocRead (d.callerRq p x.ctx) (pa / 64) = some (l, d2) →
            exec (.fenceReread q slot) s = .next (s.withDev (d2.decideWait q.val c)))
        ∧ (d.pocRead (d.callerRq p x.ctx) (pa / 64) = none → exec (.fenceReread q slot) s = .next s)))
    ∧ (∀ va pl v, c.body = .signal va pl v → c.st = .running → c.kill = none → d.remotesDone q.val k = true →
      (∀ e ∈ c.engines, engineCore e.eng = none) →
      let asks := s.withDev (d.putCmd q.val { c with st := .committing })
      exec (.signal q slot) s = .next asks ∧ exec (.workFinished q slot) s = .next asks)
    ∧ (c.sent = none → (d.part p).qop ≠ some (.abort q.val k false) → exec (.killAtArbiter q slot) s = .next s)
    ∧ (c.sent = none → (d.part p).qop = some (.abort q.val k false) → x.st ≠ .free → x.st ≠ .destroying → exec (.killAtArbiter q slot) s
        = .next (s.withDev (d.setPart p { d.part p with qop := some (.abort q.val k true) })))
    ∧ (∀ why, c.sent = some why → why ≠ .ends errKilledAbort → (∀ e ∈ c.engines, e.order ≠ .drain) → exec (.killAtArbiter q slot) s = .next (s.withDev
        (((d.putCmd q.val { c with sent := none, kill := some why }).order q.val k .kill).settleKill q.val k)))
    ∧ (∀ pp : Fin 48,
        ((d.part pp.val).signals = [] → exec (.fenceSignal pp) s = .next s)
        ∧ ((d.part pp.val).errors = [] → exec (.fenceErrorStore pp) s = .next s)
        ∧ (∀ op rest pa, (d.part pp.val).signals = op :: rest → op.place = .local_ pa →
            let d1 := d.setPart pp.val { d.part pp.val with signals := rest }
            (∀ d2, d1.applyFence (d1.fenceRq pp.val op) pp.val op pa = some d2 → exec (.fenceSignal pp) s = .next (s.withDev d2))
            ∧ (d1.applyFence (d1.fenceRq pp.val op) pp.val op pa = none → exec (.fenceSignal pp) s = .next s))
        ∧ (∀ op rest pa, (d.part pp.val).errors = op :: rest → op.place = .local_ pa →
            let d1 := d.setPart pp.val { d.part pp.val with errors := rest }
            (∀ d2, d1.applyFence (d1.fenceRq pp.val op) pp.val op pa = some d2 → exec (.fenceErrorStore pp) s
              = .next (s.withDev (if op.posted = true then d2.postDone pp.val 0 else d2)))
            ∧ (d1.applyFence (d1.fenceRq pp.val op) pp.val op pa = none → exec (.fenceErrorStore pp) s = .next s)))

/-- R259, R272, R279: a COMMITTING command that no kill has met commits: COMMIT_SEQ rises by one, its signals join its partition's,
SIG_FENCE before the completion fence, and it leaves its queue; a kill that ends a command without engines takes it out of its queue too.
R258, R270, R271: the first failed check names the code. An absolute signal never lowers a fence's VALUE, and counts one that would; a
relative signal adds, or stores FENCE_OVERFLOW where it would pass 2^64 - 1. An error store keeps an error that is there and leaves VALUE.
-/
def Obligations.CommitResult : Prop :=
  (∀ (s : State) (q : Fin 16384) (slot : W32) (c : Cmd), s.dev.halted = false → s.dev.cmd? q.val slot.toNat = some c →
     let d := s.dev
     let p := (d.queue q.val).part
     p < 48 →
     (c.st = .committing → c.kill = none → ∃ t, exec (.commitRequest q slot) s = .next t ∧ t.dev.cmd? q.val slot.toNat = none
       ∧ t.dev.get fClrCommitSeqSeq p = (d.get fClrCommitSeqSeq p + 1) % 2 ^ 64
       ∧ (t.dev.part p).signals = (d.part p).signals
           ++ (match c.body with
               | .signal _ pl v => [.absolute pl v q.val c.slot]
               | _ => [])
           ++ (match c.fence with
               | some pl => [.absolute pl (BitVec.ofNat 64 (c.word 2)) q.val c.slot]
               | none => []))
     ∧ (c.st ≠ .committing → exec (.commitRequest q slot) s = .next s)
     ∧ (∀ code, c.sent = some (.ends code) → c.engines = [] → ∃ t, exec (.killAtArbiter q slot) s = .next t ∧ t.dev.cmd? q.val slot.toNat = none))
  ∧ ((∀ k : Chk, k.code = if k.poison then some 0x0302 else if k.illegal then some 0x0404 else if k.handle then some 0x0201
       else if k.range then some 0x0202 else if k.width then some 0x0403 else none)
     ∧ (∀ (x : Line) (v : Nat), v < 2 ^ 64 → lineWord (fenceAbsolute x v) 0 = max (lineWord x 0) v
         ∧ lineWord (fenceAbsolute x v) 1 = lineWord x 1 ∧ lineWord (fenceAbsolute x v) 2 = lineWord x 2
         ∧ natBitsAt (lineWord (fenceAbsolute x v) 3) 0 32
             = if v < lineWord x 0 then min (2 ^ 32 - 1) (natBitsAt (lineWord x 3) 0 32 + 1) else natBitsAt (lineWord x 3) 0 32)
     ∧ (∀ (x : Line) (v q slot : Nat), lineWord x 0 + v < 2 ^ 64 → lineWord (fenceRelative x v q slot false) 0 = lineWord x 0 + v
         ∧ lineWord (fenceRelative x v q slot false) 1 = lineWord x 1)
     ∧ (∀ (x : Line) (v q slot : Nat), 2 ^ 64 ≤ lineWord x 0 + v → (lineWord x 1).testBit 16 = false →
         lineWord (fenceRelative x v q slot false) 0 = lineWord x 0 ∧ natBitsAt (lineWord (fenceRelative x v q slot false) 1) 0 17 = 0x0204 + 2 ^ 16)
     ∧ (∀ (x : Line) (code q slot : Nat) (posted : Bool),
         ((lineWord x 1).testBit 16 = true → fenceError x code q slot posted = x)
         ∧ ((lineWord x 1).testBit 16 = false → code < 2 ^ 16 → q < 2 ^ 14 → slot < 2 ^ 32 →
           lineWord (fenceError x code q slot posted) 0 = lineWord x 0
           ∧ natBitsAt (lineWord (fenceError x code q slot posted) 1) 0 17 = code + 2 ^ 16
           ∧ natBitsAt (lineWord (fenceError x code q slot posted) 1) 17 15 = natBitsAt (lineWord x 1) 17 15
           ∧ natBitsAt (lineWord (fenceError x code q slot posted) 1) 32 14 = (if posted then 0 else q)
           ∧ natBitsAt (lineWord (fenceError x code q slot posted) 2) 0 32 = (if posted then 0 else slot))))

/-- R291 to R293, R309, R364, R368, R371: a busy partition ignores its commands, and one in the wrong state answers WRONG_STATE. ACTIVATE of a
FREE partition answers its first failed check, or makes it ACTIVE with its counters at 0 and its reserve full; it waits while FULL_UNLOCK is 1.
DISSOLVE of a partition without queues frees it and puts its units on the scrub lists of their dies. REINITIALISE leaves every queue FREE. GO
fills the attestation report of an ACTIVE partition. -/
def Obligations.PartitionResult : Prop :=
  ∀ (s : State) (p : Fin 48), s.dev.halted = false →
    let d := s.dev
    let answers (r : Nat) := Host.Outcome.next (φ := Fault) (ρ := Refusal) (s.withDev ((d.set fPrtStatBusy 0 p.val).set fPrtStatResult r p.val))
    (d.get fPrtStatBusy p.val = 1 → exec (.activatePartition p) s = .next s ∧ exec (.dissolve p) s = .next s
      ∧ exec (.reinitialise p) s = .next s)
    ∧ (d.get fPrtStatBusy p.val = 0 →
      (d.partState p.val ≠ 0 → exec (.activatePartition p) s = answers 5)
      ∧ (d.partState p.val ≠ 1 → exec (.dissolve p) s = answers 5 ∧ exec (.reinitialise p) s = answers 5)
      ∧ (d.partState p.val = 0 → d.get fFlrTestCtlFullUnlock = 1 →
          exec (.activatePartition p) s = .next (s.withDev (d.set fPrtStatBusy 1 p.val)))
      ∧ (d.partState p.val = 0 → d.get fFlrTestCtlFullUnlock = 0 → d.actResult p.val ≠ 0 →
          exec (.activatePartition p) s = answers (d.actResult p.val))
      ∧ (d.partState p.val = 0 → d.get fFlrTestCtlFullUnlock = 0 → d.actResult p.val = 0 → ∃ t, exec (.activatePartition p) s = .next t
          ∧ t.dev.partState p.val = 1 ∧ t.dev.get fPrtStatBusy p.val = 0 ∧ t.dev.get fPrtStatResult p.val = 0
          ∧ t.dev.cycleCounter p.val = 0 ∧ t.dev.get fClrCommitSeqSeq p.val = 0
          ∧ t.dev.get fPrtReserveStatFree p.val = d.get fPrtReserveCtlCount p.val
          ∧ t.dev.get fPrtServiceLevel p.val = (if d.get fMntBootStatStage = 5 then 1 else 0) ∧ t.dev.mem = d.mem)
      ∧ (d.partState p.val = 1 → d.partQueues p.val = [] → (d.part p.val).reinit = none → ∃ t, exec (.dissolve p) s = .next t
          ∧ t.dev.partState p.val = 0 ∧ t.dev.get fPrtStatBusy p.val = 0
          ∧ (∀ u ∈ d.units p.val, ∀ n ∈ d.unitDies u, ∃ x ∈ t.dev.tempo.scrubs, x.inst = n ∧ x.unit = u ∧ x.part = p.val ∧ x.next = 0)
          ∧ (∀ h ∈ d.hcores p.val, h ∉ t.dev.host.running))
      ∧ (d.partState p.val = 1 → (d.part p.val).reinit = none → (∀ q, (d.queue q).part < 48) → ∃ t, exec (.reinitialise p) s = .next t
          ∧ t.dev.partState p.val = 3 ∧ (∀ q, d.qIn p.val q = true → (t.dev.queue q).st = .free)
          ∧ (∃ r, (t.dev.part p.val).reinit = some r ∧ r.cause = 5 ∧ r.site = 0x3F)))
    ∧ ((d.part p.val).reinit = none → exec (.reinitOverrun p) s = .next s)
    ∧ ((d.part p.val).reinit ≠ none → exec (.reinitOverrun p) s = .next (s.withDev (d.warmReset 4 noSite 0)))
    ∧ (d.get fPrtAttestStatBusy p.val = 1 → exec (.attestGo p) s = .next s)
    ∧ (d.get fPrtAttestStatBusy p.val = 0 →
      ((d.partState p.val ≠ 1 ∨ d.get fMntIdStatIdValid = 0) → exec (.attestGo p) s = .next (s.withDev (d.set fPrtAttestStatResult 1 p.val)))
      ∧ (d.partState p.val = 1 → d.get fMntIdStatIdValid = 1 → ∃ t, exec (.attestGo p) s = .next t
          ∧ t.dev.get fPrtAttestStatResult p.val = 0 ∧ natBitsAt (t.dev.word .prtAttestReport p.val 0) 0 32 = 0x46545241
          ∧ natBitsAt (t.dev.word .prtAttestReport p.val 0) 48 8 = p.val
          ∧ (∀ i < 4, t.dev.word .prtAttestReport p.val (2 + i) = d.word .prtAttestNonce p.val i) ∧ t.dev.mem = d.mem))

/-- R197, R213, R308: a replicated pair that keeps the rules takes its fields, and a write that breaks them changes nothing. Each floor-wide
bit follows the write where its block is free to change, and stays otherwise. SNAPSHOT_GO takes slots it owns and turns away the rest; once the
counters are sampled, the record is written and its slots return with RESULT 0 and the next SNAP_SEQ, or RESULT 1 where another writer
changed a flag. -/
def Obligations.ProviderMapResult : Prop :=
  (∀ (s : State) (j : Fin 64) (v : W64), s.dev.halted = false →
    (v.toNat.testBit 63 = true → s.dev.pairOk (natBitsAt v.toNat 0 11) (natBitsAt v.toNat 16 11) = false →
      exec (.hbmReplPairWrite j v) s = .next s)
    ∧ ((v.toNat.testBit 63 = false ∨ s.dev.pairOk (natBitsAt v.toNat 0 11) (natBitsAt v.toNat 16 11) = true) →
      ∃ t, exec (.hbmReplPairWrite j v) s = .next t ∧ t.dev.get fHbmReplPairPrimary j.val = natBitsAt v.toNat 0 11
        ∧ t.dev.get fHbmReplPairReplica j.val = natBitsAt v.toNat 16 11 ∧ t.dev.get fHbmReplPairValid j.val = natBitsAt v.toNat 63 1
        ∧ t.dev.mem = s.dev.mem))
  ∧ (∀ (s : State) (i : Fin 2) (v : W64), s.dev.halted = false → ∃ t, exec (.hbmFwMapWrite i v) s = .next t
    ∧ (∀ b < (if i.val = 0 then 64 else 63), (t.dev.word .hbmFwMap i.val 0).testBit b
        = if s.dev.blockFree (64 * i.val + b) = true then v.toNat.testBit b else (s.dev.word .hbmFwMap i.val 0).testBit b)
    ∧ t.dev.mem = s.dev.mem)
  ∧ (∀ (s : State) (v : W64), s.dev.halted = false →
    let wr := s.dev.setWord .mtrSnapCtl 0 0 (regWrite .mtrSnapCtl false (s.dev.word .mtrSnapCtl 0 0) v.toNat)
    let slot := wr.get fMtrSnapCtlFirstSlot
    let ctx := wr.get fMtrSnapCtlFirstCtx
    let count := wr.get fMtrSnapCtlCount
    let fits : Prop := count ≠ 0 ∧ ctx + count ≤ 4096 ∧ slot + snapSlots count ≤ 16384 ∧ s.dev.snapOwned slot count = true
    (v.toNat.testBit 63 = false → exec (.snapshotGo v) s = .next (s.withDev wr))
    ∧ (v.toNat.testBit 63 = true → s.dev.get fMtrSnapStatBusy = 1 → exec (.snapshotGo v) s = .next s)
    ∧ (v.toNat.testBit 63 = true → s.dev.get fMtrSnapStatBusy = 0 → regWriteReserved .mtrSnapCtl v.toNat = false → fits →
        let taken := (wr.xwTakeAll (snapAt slot count)).set fMtrSnapStatBusy 1
        exec (.snapshotGo v) s
          = .next (s.withDev (taken.setTempo { taken.tempo with snapshot := some (slot, ctx, count), sampled := none })))
    ∧ (v.toNat.testBit 63 = true → s.dev.get fMtrSnapStatBusy = 0 → (regWriteReserved .mtrSnapCtl v.toNat = true ∨ ¬ fits) →
        exec (.snapshotGo v) s = .next (s.withDev (s.dev.set fMtrSnapStatResult 1))))
  ∧ (∀ (s : State), s.dev.halted = false →
    (s.dev.tempo.snapshot = none ∨ s.dev.tempo.sampled = none → exec .snapshotSample s = .next s)
    ∧ (∀ slot ctx count bytes, s.dev.tempo.snapshot = some (slot, ctx, count) → s.dev.tempo.sampled = some bytes →
      (snapAt slot count).all s.dev.xwKept = true →
      ∃ t, exec .snapshotSample s = .next t ∧ t.dev.tempo.snapshot = none ∧ t.dev.get fMtrSnapStatBusy = 0
        ∧ t.dev.get fMtrSnapStatResult = 0 ∧ t.dev.get fMtrSnapStatSnapSeq = (s.dev.get fMtrSnapStatSnapSeq + 1) % 2 ^ 32)
    ∧ (∀ slot ctx count bytes, s.dev.tempo.snapshot = some (slot, ctx, count) → s.dev.tempo.sampled = some bytes →
      (snapAt slot count).all s.dev.xwKept = false →
      ∃ t, exec .snapshotSample s = .next t ∧ t.dev.tempo.snapshot = none ∧ t.dev.get fMtrSnapStatBusy = 0
        ∧ t.dev.get fMtrSnapStatResult = 1))

/-- R313, R314, R411, R412: FZCTX is read and takes CTX and VALID at S-level, VALID only with a context of the partition's block, and is
an illegal instruction at U-level. A running hart's access to the device control space, to another partition's page or to a word there that is not
aligned takes an access fault, and one to memory does not. -/
def Obligations.HostHartResult : Prop :=
  ∀ (s : State) (h : Fin 96), s.dev.halted = false →
    (s.dev.host.running.contains h.val = false →
      (∀ mode x, exec (.fzctxWrite h mode x) s = .next s)
      ∧ (∀ addr wr al, exec (.hostForbiddenAccess h addr wr al) s = .next s))
    ∧ (s.dev.host.running.contains h.val = true →
      (∀ x, exec (.fzctxWrite h .user x) s = .next (s.withDev (s.dev.emit (.hartIllegal h.val))))
      ∧ (exec (.fzctxWrite h .supervisor .read) s
          = .next (s.withDev (s.dev.emit (.answer (smapGet s.dev.host.fzctx h.val 0).toNat false))))
      ∧ (∀ (v : W64) p, s.dev.hartPart h.val = some p →
        ∃ x : W64, exec (.fzctxWrite h .supervisor (.write v)) s
            = .next (s.withDev (s.dev.setHost { s.dev.host with fzctx := smapPut s.dev.host.fzctx h.val x }))
          ∧ natBitsAt x.toNat 0 12 = natBitsAt v.toNat 0 12 ∧ natBitsAt x.toNat 12 51 = 0
          ∧ (x.getLsbD 63 = true ↔ v.getLsbD 63 = true ∧ s.dev.ctxFirst p ≤ natBitsAt v.toNat 0 12
              ∧ natBitsAt v.toNat 0 12 < s.dev.ctxFirst p + s.dev.ctxCount p))
      ∧ (∀ (addr : BitVec 52) wr al,
        (isDevice addr.toNat = true ∨ (isPage addr.toNat = true
            ∧ (al = false ∨ s.dev.hartPart h.val ≠ some ((addr.toNat - 0xFD00000000000) / 65536))) →
          exec (.hostForbiddenAccess h addr wr al) s = .next (s.withDev (s.dev.emit (.hartFault h.val (if wr then .store else .load)))))
        ∧ (isMemory addr.toNat = true → exec (.hostForbiddenAccess h addr wr al) s = .next s)))

/-- R7, R8, R10, R11, R316, R411: a register write leaves in each field of a register without a rule of its own what the field's access type
says, and touches no other register. PRT_INT_FAULT and PRT_INT_FENCE take a word that names a hart of the partition or the companion, and
stay otherwise; a write where no register lies does nothing, nor one by a hart that does not run or by the companion while the link is
down. SHC_PF_CTL is not Minuet's to write (R163). R9: a read of an unassigned address of the device control space answers 0. -/
def Obligations.RegisterWriteResult : Prop :=
  (∀ (s : State) (src : Source) (addr : BitVec 52) (v : W64) r a b, s.dev.halted = false → regAt addr.toNat = some (r, a, b) →
    addr.toNat % 8 = 0 → s.dev.arrives src = true → (src = .minuet → r ≠ .shcPfCtl) → (∀ h, src = .hart h → s.dev.hartMay h.val addr.toNat true = true) → r ∉ ownRuleRegs →
    ∃ t, exec (.registerWrite src addr v) s = .next t
      ∧ (∀ f ∈ regFields r, natBitsAt (t.dev.word r a b) f.lo f.w
          = fieldAfter (s.dev.locked r a b) f (natBitsAt (s.dev.word r a b) f.lo f.w) (natBitsAt (instanceBits r a v.toNat) f.lo f.w))
      ∧ (∀ r' a' b', (r', a', b') ≠ (r, a, b) → t.dev.word r' a' b' = s.dev.word r' a' b')
      ∧ ({ t.dev with regs := s.dev.regs, written := s.dev.written } : Dev) = s.dev ∧ t.pending = s.pending)
  ∧ (∀ (s : State) (src : Source) (addr : BitVec 52) (v : W64), s.dev.halted = false →
    (s.dev.arrives src = false ∨ (src = .minuet ∧ ∃ a b, regAt addr.toNat = some (.shcPfCtl, a, b)) →
      exec (.registerWrite src addr v) s = .next s))
  ∧ (∀ (s : State) (src : Source) (addr : BitVec 52) (v : W64), s.dev.halted = false → isPage addr.toNat = true ∨ isDevice addr.toNat = true →
    (∀ h, src = .hart h → s.dev.hartMay h.val addr.toNat (addr.toNat % 8 = 0) = true) → regAt addr.toNat = none →
    exec (.registerWrite src addr v) s = .next s)
  ∧ (∀ (s : State) (addr : BitVec 52) (v : W64), s.dev.halted = false → s.dev.linkUp = true → isDevice addr.toNat = true →
    regAt addr.toNat = none → exec (.configWrite addr v) s = .next (s.withDev (s.dev.toCompanion .completion))
      ∧ (0xFF00000011800 ≤ addr.toNat → exec (.configRead addr) s = .next (s.withDev (s.dev.toCompanion (.answer 0 false)))))
  ∧ (∀ (s : State) (h : Fin 96) (addr : BitVec 52) (v : W64), s.dev.halted = false → isDevice addr.toNat = true →
    s.dev.host.running.contains h.val = true →
    exec (.registerWrite (.hart h) addr v) s = .next (s.withDev (s.dev.emit (.hartFault h.val .store))))
  ∧ (∀ (s : State) (p : Fin 48) (fence : Bool) (v : W64), s.dev.halted = false →
    let r := if fence then Reg.prtIntFence else Reg.prtIntFault
    (v.getLsbD 1 = false → natBitsAt v.toNat 2 7 ∉ s.dev.hcores p.val → exec (.prtIntWrite p fence v) s = .next s)
    ∧ (v.getLsbD 1 = true ∨ natBitsAt v.toNat 2 7 ∈ s.dev.hcores p.val →
      natBitsAt v.toNat 9 3 < 6 → natBitsAt v.toNat 12 11 ≠ 0 →
      ∃ x, exec (.prtIntWrite p fence v) s = .next (s.withDev (s.dev.setWord r p.val 0 x)) ∧ natBitsAt x 0 23 = natBitsAt v.toNat 0 23))

/-- R318, R320: on a link that is UP, FEC_CORR counts what FEC corrected; a flit whose CRC fails is discarded and counted as replayed and
not correctable; the expected flit is taken, what it acknowledges leaves the retry buffer and what waited for room there is sent; another
is ignored. The eighth replay, loss of lock and RETRAIN bring the link down: it
trains, counts the retraining, agent 13 is dead and no message of the companion is left. ULK_XW_BASE and ULK_XW_FLAGS (R324) take a word
while ENABLE is 0. R320 to R322, R327, R329, R411: at the end of training the companion's allowance is taken or refused, the link is UP,
agent 13 lives and what was owed is sent. A configuration read of a register answers what software reads and changes nothing; outside the
two spaces it is poisoned. A configuration write is the companion's register write, and is completed. A time mark latches the companion's time and the cycle
counter of every ACTIVE partition and is echoed; its echo's code is the model's. -/
def Obligations.UlitumResult : Prop :=
  ((∀ (s : State), s.dev.halted = false → s.dev.linkUp = false →
     (∀ seq ack ok n, exec (.ulkFlit seq ack ok n) s = .next s) ∧ exec .ulkReplayLimit s = .next s ∧ exec .ulkLockLoss s = .next s
       ∧ (∀ v, exec (.retrain v) s = .next s) ∧ (∀ a, exec (.configRead a) s = .next s) ∧ (∀ a v, exec (.configWrite a v) s = .next s)
       ∧ (∀ i c, exec (.timeMark i c) s = .next s))
   ∧ (∀ (s : State) (seq ack : BitVec 10) (ok : Bool) (n : Nat), s.dev.halted = false → s.dev.linkUp = true →
     let u := s.dev.host.ulk
     let here := u.buffer.any (fun x => x.1 = ack.toNat)
     let left := if here then (u.buffer.dropWhile fun x => x.1 ≠ ack.toNat).drop 1 else u.buffer
     ∃ w, (ok = false → exec (.ulkFlit seq ack ok n) s
         = .next (s.withDev ((s.dev.setWord .ulkErr 0 0 w).setUlk { u with replays := min 8 (u.replays + 1) })))
       ∧ (ok = true → seq.toNat ≠ u.expect → exec (.ulkFlit seq ack ok n) s = .next (s.withDev (s.dev.setWord .ulkErr 0 0 w)))
       ∧ (ok = true → seq.toNat = u.expect → ∃ t sent, exec (.ulkFlit seq ack ok n) s = .next t ∧ u.held = sent ++ t.dev.host.ulk.held
         ∧ t.dev.out = s.dev.out ++ sent ∧ t.dev.host.ulk.expect = (seq.toNat + 1) % 1024 ∧ t.dev.host.ulk.replays = 0
         ∧ t.dev.host.ulk.acked = (if here then ack.toNat else u.acked) ∧ t.dev.host.ulk.owed = u.owed
         ∧ t.dev.host.ulk.buffer.map (·.2) = left.map (·.2) ++ sent ∧ left <+: t.dev.host.ulk.buffer
         ∧ (t.dev.host.ulk.held = [] ∨ 256 ≤ t.dev.host.ulk.buffer.length)
         ∧ ({ t.dev.setUlk u with out := s.dev.out } : Dev) = s.dev.setWord .ulkErr 0 0 w)
       ∧ natBitsAt w 0 32 = min (2 ^ 32 - 1) (s.dev.get fUlkErrFecCorr + n)
       ∧ natBitsAt w 32 16 = min (2 ^ 16 - 1) (s.dev.get fUlkErrReplays + if ok then 0 else 1)
       ∧ natBitsAt w 48 16 = min (2 ^ 16 - 1) (s.dev.get fUlkErrFecUncorr + if ok then 0 else 1))
   ∧ (∀ (s : State), s.dev.halted = false → s.dev.linkUp = true →
     ∃ t, exec .ulkLockLoss s = .next t ∧ t.dev.get fUlkStatState = 1
       ∧ t.dev.get fUlkStatRetrains = min 65535 (s.dev.get fUlkStatRetrains + 1) ∧ t.dev.dead 13 = true
       ∧ (∀ m ∈ t.dev.coh.msgs, m.fromAgent 13 = false) ∧ t.dev.host.ulk.buffer = [] ∧ t.dev.host.ulk.held = []
       ∧ s.dev.host.ulk.owed ++ (s.dev.host.ulk.buffer.map (·.2) ++ s.dev.host.ulk.held).filterMap Emission.msi? <+: t.dev.host.ulk.owed
       ∧ t.dev.cores = s.dev.cores ∧ t.dev.queues = s.dev.queues
       ∧ (∀ v : W64, exec (.retrain v) s = if v.getLsbD 0 = true then .next t else .next s)
       ∧ exec .ulkReplayLimit s = if 8 ≤ s.dev.host.ulk.replays then .next t else .next s)
   ∧ (∀ (s : State) (flags : Bool) (v : W64), s.dev.halted = false →
     (s.dev.xwOn = true → exec (.xwConfigWrite flags v) s = .next s)
     ∧ (s.dev.xwOn = false →
       ∃ x, exec (.xwConfigWrite flags v) s = .next (s.withDev (s.dev.setWord (if flags then .ulkXwFlags else .ulkXwBase) 0 0 x))
         ∧ (flags = true → natBitsAt x 17 35 = natBitsAt v.toNat 17 35)
         ∧ (flags = false → natBitsAt x 26 26 = natBitsAt v.toNat 26 26 ∧ natBitsAt x 63 1 = natBitsAt v.toNat 63 1))))
  ∧ ((∀ (s : State) (k : BitVec 5) (w : BitVec 6) (half upper : Bool), s.dev.halted = false →
       (s.dev.get fUlkStatState ≠ 1 → exec (.ulkAllowanceDeclaration k w half upper) s = .next s)
       ∧ (s.dev.get fUlkStatState = 1 →
         ∃ t, exec (.ulkAllowanceDeclaration k w half upper) s = .next t ∧ t.dev.get fUlkStatState = 2 ∧ t.dev.dead 13 = false
           ∧ t.dev.host.ulk.owed = []
           ∧ (∃ pre more sent rest, (s.dev.host.ulk.owed ++ more).map (fun x => Emission.companion x.1 x.2) = sent ++ rest
             ∧ t.dev.out = pre ++ sent ∧ t.dev.host.ulk.held = s.dev.host.ulk.held ++ rest
             ∧ (rest = [] ∨ s.dev.host.ulk.held ≠ [] ∨ 256 ≤ t.dev.host.ulk.buffer.length))
           ∧ t.dev.get fUlkStatHalf = (if half then 1 else 0)
           ∧ (w.toNat ≤ 32 ∧ 2 ^ k.toNat * w.toNat * 64 ≤ 33554432 → t.dev.get fUlkStatSetsLog2 = k.toNat
             ∧ t.dev.get fUlkStatWays = w.toNat ∧ t.dev.get fUlkStatAllowRefused = 0)
           ∧ (32 < w.toNat ∨ 33554432 < 2 ^ k.toNat * w.toNat * 64 → t.dev.get fUlkStatSetsLog2 = 0
             ∧ t.dev.get fUlkStatWays = 0 ∧ t.dev.get fUlkStatAllowRefused = 1)))
     ∧ (∀ (s : State) (addr : BitVec 52), s.dev.halted = false → s.dev.linkUp = true →
       (∀ r a b, regAt addr.toNat = some (r, a, b) → addr.toNat % 8 = 0 → r ∉ [Reg.tmpStat, .shcHomeStat, .shfTestOut, .prtNearPfMask] →
         exec (.configRead addr) s = .next (s.withDev (s.dev.toCompanion (.answer (regRead r (s.dev.word r a b)) false))))
       ∧ (isPage addr.toNat = false → isDevice addr.toNat = false →
         exec (.configRead addr) s
           = .next (s.withDev ((s.dev.log 12 noneByte noneByte 0 0 addr.toNat []).toCompanion (.answer 0 true))))
       ∧ (∀ v, ∃ t, exec (.registerWrite (.companion none) addr v) s = .next t
         ∧ exec (.configWrite addr v) s = .next (if t.dev.linkUp then t.withDev (t.dev.toCompanion .completion) else t)))
     ∧ (∀ (s : State) (mark : Byte) (comp : W64), s.dev.halted = false → s.dev.linkUp = true →
       ∃ t, exec (.timeMark mark comp) s = .next t
         ∧ (∀ p < 48, s.dev.partState p = 1 → t.dev.word .prtTmark0 p 0 = comp.toNat
           ∧ t.dev.word .prtTmark1 p 0 = (s.dev.cycleCounter p).toNat % 2 ^ 56 + mark.toNat * 2 ^ 56)
         ∧ (∀ p < 48, s.dev.partState p ≠ 1 → t.dev.word .prtTmark0 p 0 = s.dev.word .prtTmark0 p 0
           ∧ t.dev.word .prtTmark1 p 0 = s.dev.word .prtTmark1 p 0)
         ∧ ({ t.dev with regs := s.dev.regs } : Dev) = s.dev.toCompanion (.companion companionEcho mark.toNat)))

/-- R331, R332, R335, R403: a port that loses a data wavelength runs on the rest, and below 4 it is DOWN and no request is left on it (no
standing approval of Reel cut-ins). A trained port carries data on the wavelengths of 0 to 7 that are not lost and on the spares cut in, UP with
4 or more; a dark one is DOWN. -/
def Obligations.ReelPortResult : Prop :=
  (∀ (s : State) (port : Fin 16) (wl : Fin 10), s.dev.halted = false →
    let map := s.dev.get fRelPortStatWlMap port.val
    let left := s.dev.get fRelPortStatDataWl port.val - 1
    (map.testBit wl.val = false → exec (.reelWavelengthLoss port wl) s = .next s)
    ∧ (map.testBit wl.val = true → (s.dev.get fCutStatStanding).testBit 4 = false →
      ∃ t, exec (.reelWavelengthLoss port wl) s = .next t ∧ t.dev.get fRelPortStatDataWl port.val = left
        ∧ (∀ i < 10, (t.dev.get fRelPortStatWlMap port.val).testBit i = (map.testBit i && i != wl.val))
        ∧ (s.dev.get fRelPortStatState port.val = 2 → left < 4 → t.dev.get fRelPortStatState port.val = 0
          ∧ ∀ r ∈ t.dev.reel.remotes, r.port ≠ some port.val)
        ∧ (s.dev.get fRelPortStatState port.val ≠ 2 ∨ 4 ≤ left →
          t.dev.get fRelPortStatState port.val = s.dev.get fRelPortStatState port.val ∧ t.dev.reel.remotes = s.dev.reel.remotes)))
  ∧ (∀ (s : State) (port : Fin 16), s.dev.halted = false →
    let lost := smapGet s.dev.reel.lost port.val []
    let cuts := smapGet s.dev.reel.wlCuts port.val []
    let stage := s.dev.get fMntBootStatStage
    (stage ≠ 4 → stage ≠ 5 → ∀ up, exec (.reelPortTraining port up) s = .next s)
    ∧ (stage = 4 ∨ stage = 5 →
      (∃ t, exec (.reelPortTraining port false) s = .next t ∧ t.dev.get fRelPortStatState port.val = 0
        ∧ (∀ r ∈ t.dev.reel.remotes, r.port ≠ some port.val) ∧ port.val ∈ t.dev.reel.settled)
      ∧ (∃ t, exec (.reelPortTraining port true) s = .next t ∧ port.val ∈ t.dev.reel.settled
        ∧ (∀ i < 8, (t.dev.get fRelPortStatWlMap port.val).testBit i = !lost.contains i)
        ∧ (∀ i, 8 ≤ i → i < 10 → (t.dev.get fRelPortStatWlMap port.val).testBit i = (cuts.contains i && !lost.contains i))
        ∧ t.dev.get fRelPortStatSpares port.val = 2 - cuts.length
        ∧ t.dev.get fRelPortStatDataWl port.val = ((List.range 10).countP fun i => (t.dev.get fRelPortStatWlMap port.val).testBit i)
        ∧ t.dev.get fRelPortStatState port.val = (if 4 ≤ t.dev.get fRelPortStatDataWl port.val then 2 else 0)
        ∧ t.dev.mem = s.dev.mem ∧ t.dev.reel.remotes = s.dev.reel.remotes)))

/-- R230, R333, R338, R339, R342: an arriving fence operation whose window entry does not grant it is counted, logged and reported, and with
no log slot changes no byte of memory. A fence operation that is granted is applied and acknowledged, or answered RETRY where the home
does not take it yet. A segment is counted under its key, and stored, or kept until the owner adds it; with no entry of the table free it is
answered RETRY, and one whose window entry does not grant it is refused. A signal without a route is sent once it has one, tried up to 100
times, and then discarded. -/
def Obligations.ReelArrivalResult : Prop :=
  (∀ (s : State) (src : BitVec 12) (window : BitVec 16) (off : W64) (key : W32) (m : FenceMsg) (id : W32), s.dev.halted = false →
    (∀ pa owner d1, s.dev.admitRemote src.toNat window.toNat off.toNat key.toNat false true true = (some (pa, owner), d1) →
      (∀ d2, d1.applyFence (receiverRq owner) owner (fenceOpOf (.local_ pa) m) pa = some d2 →
        exec (.remoteFenceSignal src window off key m id) s = .next (s.withDev (d2.emit (.reel src.toNat reelAck [id.toNat]))))
      ∧ (d1.applyFence (receiverRq owner) owner (fenceOpOf (.local_ pa) m) pa = none →
        exec (.remoteFenceSignal src window off key m id) s = .next (s.withDev (d1.emit (.reel src.toNat reelRetry [id.toNat])))))
    ∧ (∀ d1, s.dev.admitRemote src.toNat window.toNat off.toNat key.toNat false true true = (none, d1) →
      ∃ t pre, exec (.remoteFenceSignal src window off key m id) s = .next t
        ∧ t.dev.get fXltWinStatRefused = min (2 ^ fXltWinStatRefused.w - 1) (s.dev.get fXltWinStatRefused + 1)
        ∧ t.dev.out = pre ++ [.reel src.toNat reelRefuse [id.toNat]] ∧ s.dev.minuet.logSeq < t.dev.minuet.logSeq
        ∧ (d1.minuet.logSlots = [] → t.dev.mem = d1.mem ∧ t.dev.minuet.logSeq = d1.minuet.logSeq + 1) ∧ t.dev.cores = s.dev.cores ∧ t.dev.queues = s.dev.queues))
  ∧ (∀ (s : State) (id : W32) (r : Remote) (op : FenceOp), s.dev.halted = false → s.dev.remote? id.toNat = some r → r.kind = .fence op →
    (r.port ≠ none → exec (.remoteSignalRetry id) s = .next s)
    ∧ (r.port = none → s.dev.routePort r.win.module_ r.q r.win.window = none →
      (r.tries < 99 → ∃ t, exec (.remoteSignalRetry id) s = .next t
        ∧ t = s.withDev (s.dev.setReel { s.dev.reel with remotes := t.dev.reel.remotes })
        ∧ t.dev.remote? id.toNat = some { r with tries := r.tries + 1 })
      ∧ (99 ≤ r.tries → ∃ t, exec (.remoteSignalRetry id) s = .next t ∧ t.dev.remote? id.toNat = none
        ∧ s.dev.minuet.logSeq < t.dev.minuet.logSeq
        ∧ (s.dev.minuet.logSlots = [] → t.dev.minuet.logSeq = s.dev.minuet.logSeq + 1 ∧ t.dev.mem = s.dev.mem)))
    ∧ (∀ port, r.port = none → s.dev.routePort r.win.module_ r.q r.win.window = some port →
      ∃ t, exec (.remoteSignalRetry id) s = .next t ∧ t.dev.remote? id.toNat = some { r with port := some port }
        ∧ t.dev.out = s.dev.out ++ [.reel r.win.module_ r.msg ([id.toNat, r.win.window, r.off, r.win.key] ++ r.payload)]))
  ∧ (∀ (s : State) (bridge : Fin 12) (m : SegMsg), s.dev.halted = false →
    let admits (d : Dev) (off : Nat) := d.admitRemote m.src.toNat m.window.toNat off m.key.toNat false (!m.add) m.add
    let refused (d : Dev) := Host.Outcome.next (φ := Fault) (ρ := Refusal)
      (s.withDev (d.refuseRemote m.src.toNat m.window.toNat m.off.toNat m.id.toNat))
    (∀ d, admits s.dev m.off.toNat = (none, d) → exec (.collectiveSegment bridge m) s = refused d)
    ∧ (∀ x d d', admits s.dev m.off.toNat = (some x, d) → admits d (m.off.toNat + m.bytes.length - 1) = (none, d') →
        exec (.collectiveSegment bridge m) s = refused d'))
  ∧ (∀ (s : State) (bridge : Fin 12) (m : SegMsg) pa owner y da db, s.dev.halted = false →
    s.dev.admitRemote m.src.toNat m.window.toNat m.off.toNat m.key.toNat false (!m.add) m.add = (some (pa, owner), da) →
    da.admitRemote m.src.toNat m.window.toNat (m.off.toNat + m.bytes.length - 1) m.key.toNat false (!m.add) m.add = (some y, db) →
    let d1 := db.reclaimArrivals
    let replies (d : Dev) (kind : Nat) := Host.Outcome.next (φ := Fault) (ρ := Refusal) (s.withDev (d.emit (.reel m.src.toNat kind [m.id.toNat])))
    (d1.openArrival bridge.val m.group.toNat m.epoch.toNat = none → exec (.collectiveSegment bridge m) s = replies d1 reelRetry)
    ∧ (∀ a, d1.openArrival bridge.val m.group.toNat m.epoch.toNat = some a → ∃ b : Arrival,
      b.waiting = a.waiting ∧ b.is bridge.val m.group.toNat m.epoch.toNat = true
      ∧ b.bytesFrom m.rank.toNat m.allgather m.shard.toNat m.window.toNat
          = a.bytesFrom m.rank.toNat m.allgather m.shard.toNat m.window.toNat + m.bytes.length
      ∧ (m.add = true → exec (.collectiveSegment bridge m) s = replies (d1.putArrival { b with waiting := b.waiting ++
          [{ rank := m.rank.toNat, shard := m.shard.toNat, pa := pa, bytes := m.bytes, window := m.window.toNat, stale := false }] }) reelAck)
      ∧ (m.add = false → ∀ d2, Dev.pocStore (receiverRq owner) pa m.bytes d1 = some d2 →
          exec (.collectiveSegment bridge m) s = replies (d2.putArrival b) reelAck)
      ∧ (m.add = false → Dev.pocStore (receiverRq owner) pa m.bytes d1 = none →
          exec (.collectiveSegment bridge m) s = replies d1 reelRetry)))

/-- R350 to R352: on an edge that is UP the awaited flit is taken and another ignored; a flit whose CRC fails is replayed and counted, and the
failure of its fourth replay starts a retrain of its direction. At the end of a retrain both directions are at rest, RETRAINS counts it, and the edge is UP where both directions have 40 groups
and both dies run. A first failed wire of a group takes the spare under standing approval and waits without it, and a second removes the
group. -/
def Obligations.ChasseResult : Prop :=
  (∀ (s : State) (e : Fin 120) (dir : Dir), s.dev.halted = false →
    let ba := dirBa dir
    let x := s.dev.edgeDir e.val ba
    let trains := Host.Outcome.next (φ := Fault) (ρ := Refusal)
      (s.withDev ((s.dev.setEdgeDir e.val ba { x with training := true }).set fFlrChsStatState 1 e.val))
    (s.dev.get fFlrChsStatState e.val ≠ 2 → ∀ f, exec (.chasseFlit e dir f) s = .next s)
    ∧ (s.dev.get fFlrChsStatState e.val = 2 →
      (∀ seq : BitVec 10,
        (seq.toNat = x.expect → exec (.chasseFlit e dir ⟨seq, true⟩) s
          = .next (s.withDev (s.dev.setEdgeDir e.val ba { x with expect := (seq.toNat + 1) % 1024, replays := 0 })))
        ∧ (seq.toNat ≠ x.expect → exec (.chasseFlit e dir ⟨seq, true⟩) s = .next s))
      ∧ (x.replays < 4 → ∃ w, (∀ seq, exec (.chasseFlit e dir ⟨seq, false⟩) s
            = .next (s.withDev ((s.dev.setEdgeDir e.val ba { x with replays := x.replays + 1 }).setWord .flrChsStat e.val 0 w)))
          ∧ natBitsAt w 42 16 = min 65535 (s.dev.get fFlrChsStatReplays e.val + 1)
          ∧ natBitsAt w 0 42 = natBitsAt (s.dev.word .flrChsStat e.val 0) 0 42)
      ∧ (x.replays = 4 → ∀ seq, exec (.chasseFlit e dir ⟨seq, false⟩) s = trains))
    ∧ (s.dev.get fFlrChsStatState e.val = 0 → ∀ c, exec (.chasseRetrain e dir c) s = .next s)
    ∧ (s.dev.get fFlrChsStatState e.val ≠ 0 → exec (.chasseRetrain e dir .deskew) s = trains
      ∧ exec (.chasseRetrain e dir .request) s = trains
      ∧ exec (.chasseRetrain e dir .replays) s = if x.replays < 4 then .next s else trains))
  ∧ (∀ (s : State) (e : Fin 120) (ab ba : List (Fin 1584)), s.dev.halted = false →
    let x := s.dev.edgeDir e.val false
    let y := s.dev.edgeDir e.val true
    let standing := (s.dev.get fCutStatStanding).testBit 2
    let ran (n : Nat) : Prop := s.dev.siteState n = 2
    (s.dev.get fFlrChsStatState e.val ≠ 1 → exec (.chasseRetrainComplete e ab ba) s = .next s)
    ∧ (s.dev.get fFlrChsStatState e.val = 1 → ∃ t, exec (.chasseRetrainComplete e ab ba) s = .next t
      ∧ t.dev.get fFlrChsStatRetrains e.val = min 65535 (s.dev.get fFlrChsStatRetrains e.val + 1)
      ∧ (∀ b, (t.dev.edgeDir e.val b).replays = 0 ∧ (t.dev.edgeDir e.val b).training = false)
      ∧ t.dev.get fFlrChsStatGroupsAb e.val = (t.dev.edgeDir e.val false).groups
      ∧ t.dev.get fFlrChsStatGroupsBa e.val = (t.dev.edgeDir e.val true).groups
      ∧ (t.dev.get fFlrChsStatState e.val = 2 ↔ 40 ≤ (t.dev.edgeDir e.val false).groups ∧ 40 ≤ (t.dev.edgeDir e.val true).groups
          ∧ ran (edgeEnds e.val).1 ∧ ran (edgeEnds e.val).2)
      ∧ t.dev.get fFlrChsStatState e.val ≠ 1
      ∧ (ab = [] → t.dev.edgeDir e.val false = (if x.training = true then x.cutApproved else x).rest)
      ∧ (ba = [] → t.dev.edgeDir e.val true = (if y.training = true then y.cutApproved else y).rest)
      ∧ (∀ w, ab = [w] → w.val < 1536 → x.training = true → x.approved = [] → w.val / 32 ∉ x.removed →
          let g := w.val / 32
          ((∀ u ∈ x.spared, u.1 ≠ g) → (∀ u ∈ x.waiting, u.1 ≠ g) →
            (standing = true → (kindWire, (edgeEnds e.val).1, wireUnit e.val false w.val, 1) ∉ s.dev.minuet.declined →
              t.dev.edgeDir e.val false = { x with spared := x.spared ++ [(g, w.val)] }.rest)
            ∧ (standing = false → t.dev.edgeDir e.val false = { x with waiting := x.waiting ++ [(g, w.val)] }.rest))
          ∧ (∀ u, (g, u) ∈ x.spared → (g, w.val) ∉ x.spared → (g, w.val) ∉ x.waiting →
            g ∈ (t.dev.edgeDir e.val false).removed ∧ (t.dev.edgeDir e.val false).spared = x.spared))))

/-- R355, R357, R361: a lost laser's wavelength is dark and carries no data, and a bank with fewer than 6 data wavelengths lights no port of
its tiles (no standing approval of laser cut-ins). A schedule takes the active partitions, the floor-wide blocks and the data maps, and lights the sites that run. Loss of a PLL's lock is its die's
fault; in stand-alone test it is only reported. With REF absent for 10 ms every running die is in reset and the power cycle is requested. -/
def Obligations.FloorLightResult : Prop :=
  (∀ (s : State) (bank : Fin 4) (i : Fin 10), s.dev.halted = false →
    let lit := s.dev.get fFlrLaserStatLit bank.val
    let data := s.dev.get fFlrLaserStatDataMap bank.val
    (lit.testBit i.val = false → exec (.laserLoss bank i) s = .next s)
    ∧ (lit.testBit i.val = true → (s.dev.get fCutStatStanding).testBit 3 = false → ∃ t, exec (.laserLoss bank i) s = .next t
      ∧ (∀ j < 10, (t.dev.get fFlrLaserStatLit bank.val).testBit j = (lit.testBit j && j != i.val))
      ∧ (∀ j < 10, (t.dev.get fFlrLaserStatDataMap bank.val).testBit j = (data.testBit j && j != i.val))
      ∧ t.dev.get fFlrLaserStatSpares bank.val = s.dev.get fFlrLaserStatSpares bank.val
          - (if data.testBit i.val = true ∨ (bank.val, i.val) ∈ s.dev.floor.laserLost then 0 else 1)
      ∧ ((List.range 10).countP (fun j => (t.dev.get fFlrLaserStatDataMap bank.val).testBit j) < 6 →
          ∀ n < 56, n / 14 = bank.val → t.dev.get fFlrSiteStatPromUp n = 0)
      ∧ t.dev.cores = s.dev.cores ∧ t.dev.queues = s.dev.queues))
  ∧ (∀ (s : State), s.dev.halted = false →
    let stage := s.dev.get fMntBootStatStage
    (stage ≠ 4 → stage ≠ 5 → exec .promenadeScheduleChange s = .next s)
    ∧ (stage = 4 ∨ stage = 5 → ∃ t, exec .promenadeScheduleChange s = .next t ∧ t.dev.get fMntBootStatPromUp = 1
      ∧ (∀ p < 48, p ∈ t.dev.floor.schedule.active ↔ s.dev.partState p ≠ 0)
      ∧ t.dev.floor.schedule.floorWide = [s.dev.word .hbmFwMap 0 0, s.dev.word .hbmFwMap 1 0]
      ∧ t.dev.floor.schedule.maps = (List.range 4).map (fun q => s.dev.get fFlrLaserStatDataMap q)
      ∧ (∀ n < 69, t.dev.get fFlrSiteStatPromUp n = if s.dev.siteState n = 2 then s.dev.litPorts n else 0)
      ∧ t.dev.mem = s.dev.mem ∧ t.dev.cores = s.dev.cores))
  ∧ (∀ (s : State) (n : Fin 69), s.dev.halted = false →
    (s.dev.siteState n.val = 3 → exec (.pllLockLoss n) s = .next (s.withDev (s.dev.set fFlrSiteStatPllLock 0 n.val)))
    ∧ (s.dev.siteState n.val ≠ 3 → (∀ k : Fin 56, k.val = n.val → exec (.pllLockLoss n) s = exec (.tileDieFault k) s)
      ∧ (56 ≤ n.val → s.dev.siteState n.val ≠ 2 → exec (.pllLockLoss n) s = .next s)
      ∧ (56 ≤ n.val → n.val < 68 → s.dev.siteState n.val = 2 → exec (.pllLockLoss n) s = exec (.sharedDieFault (.bridge n)) s)
      ∧ (n.val = 68 → s.dev.siteState n.val = 2 → exec (.pllLockLoss n) s = exec (.sharedDieFault .hostComplex) s)))
  ∧ (∀ (s : State), exec .refLoss s = .next (s.withDev (s.dev.setFloor { s.dev.floor with refLost := true }))
    ∧ exec .refReturn s = .next (s.withDev (s.dev.setFloor { s.dev.floor with refLost := false })))
  ∧ (∀ (s : State), s.dev.halted = false →
    (s.dev.floor.refLost = false → exec .refHoldoverExpiry s = .next s)
    ∧ (s.dev.floor.refLost = true → s.dev.minuet.powerCycle = none → ∃ t, exec .refHoldoverExpiry s = .next t
      ∧ t.dev.halted = true ∧ t.dev.minuet.powerCycle = some .refLost ∧ t.dev.host.running = []
      ∧ (∀ n < 69, t.dev.siteState n = if s.dev.siteState n = 2 ∨ s.dev.siteState n = 3 then 1 else s.dev.siteState n)
      ∧ t.dev.floor.pins.thermAlertN = false))

/-- R363 to R365: IDCODE, SAMPLE/PRELOAD and BYPASS of the module are always available; EXTEST and SELECT_DIE are honoured as FLR_TEST_CTL
allows, and otherwise act as BYPASS. The selected die's TAP gives its IDCODE, enters stand-alone test with its edges DOWN and every home in NACK
mode, and shifts LOOPBACK. FULL_UNLOCK changes only while every partition is FREE. -/
def Obligations.TestAccessResult : Prop :=
  (∀ (s : State), (∃ t, exec .idcode s = .next t ∧ t.dev.floor.pins.ir = 1 ∧ t.dev.out = s.dev.out ++ [.sideband sbTdo 0x04856A7F]
      ∧ t.dev.regs = s.dev.regs ∧ t.dev.mem = s.dev.mem)
    ∧ exec .bypass s = .next (s.withDev (s.dev.setPins { s.dev.floor.pins with ir := 0xFF }))
    ∧ (∀ v, ∃ t, exec (.samplePreload v) s = .next t ∧ t.dev.floor.pins.boundary = v ∧ t.dev.floor.pins.ir = 2
      ∧ (∃ x < 65536, t.dev.out = s.dev.out ++ [.sideband sbTdo x]) ∧ t.dev.regs = s.dev.regs ∧ t.dev.mem = s.dev.mem)
    ∧ (s.dev.get fFlrTestCtlFullUnlock = 1 → ∃ t, exec .extest s = .next t ∧ t.dev.floor.pins.ir = 3
      ∧ t.dev.out = s.dev.out ++ [.sideband sbPins s.dev.floor.pins.boundary.toNat])
    ∧ (s.dev.get fFlrTestCtlFullUnlock = 0 → exec .extest s = exec .bypass s))
  ∧ (∀ (s : State) (v : Byte), s.dev.halted = false ∨ 6 ≤ s.dev.get fMntBootStatStage →
    let full := s.dev.get fFlrTestCtlFullUnlock = 1
    let site := s.dev.get fFlrTestCtlSiteUnlock = 1
    let off := s.dev.siteState v.toNat = 0 ∨ s.dev.siteState v.toNat = 4 ∨ s.dev.siteState v.toNat = 5
    (v.toNat < 69 → full ∨ (site ∧ v.toNat < 56 ∧ off) → 69 ≤ s.dev.get fFlrTestCtlSelected → ∃ t, exec (.selectDie v) s = .next t
      ∧ t.dev.get fFlrTestCtlSelected = v.toNat ∧ t.dev.floor.pins.ir = 0x10 ∧ t.dev.floor.pins.dieIr = 1
      ∧ (v.toNat < 56 → off → (t.dev.site v.toNat).powered = true))
    ∧ (¬ full → v.toNat < 69 → (¬ site ∨ 56 ≤ v.toNat ∨ s.dev.siteState v.toNat = 1 ∨ s.dev.siteState v.toNat = 2) →
        exec (.selectDie v) s = exec .bypass s)
    ∧ (69 ≤ v.toNat → v.toNat < 255 → exec (.selectDie v) s = exec .bypass s)
    ∧ (v.toNat = 255 → full ∨ site → ∃ t, exec (.selectDie v) s = .next t ∧ 69 ≤ t.dev.get fFlrTestCtlSelected))
  ∧ (∀ (s : State), s.dev.halted = false ∨ 6 ≤ s.dev.get fMntBootStatStage →
    let n := s.dev.get fFlrTestCtlSelected
    (69 ≤ n → exec .dieIdcode s = .next s ∧ (∀ b, exec (.standalone b) s = .next s) ∧ (∀ v, exec (.loopback v) s = .next s)
      ∧ (∀ a b, exec (.bist a b) s = .next s) ∧ (∀ v, exec (.hbm1500 v) s = .next s) ∧ exec .dieBypass s = .next s)
    ∧ (n < 69 →
      (∃ t, exec .dieIdcode s = .next t ∧ t.dev.floor.pins.dieIr = 1 ∧ t.dev.out = s.dev.out ++ [.sideband sbTdo
          ((if n < 56 then 0x4861 else if n < 68 then 0x4862 else 0x4863) * 4096 + 0xA7F)])
      ∧ exec .dieBypass s = .next (s.withDev (s.dev.dieIr 0xFF))
      ∧ exec (.standalone false) s = .next (s.withDev (s.dev.dieIr 0x20))
      ∧ (s.dev.siteState n ≠ 3 → ∃ t, exec (.standalone true) s = .next t ∧ t.dev.siteState n = 3
        ∧ (∀ h < 13, t.dev.get fShcHomeCtlNackMode h = 1)
        ∧ (∀ e < 120, (edgeEnds e).1 = n ∨ (edgeEnds e).2 = n → t.dev.get fFlrChsStatState e = 0) ∧ t.dev.floor.pins.dieIr = 0x20)
      ∧ (∀ v : W64, ∃ t, exec (.loopback v) s = .next t ∧ t.dev.out = s.dev.out ++ [.sideband sbTdo (s.dev.site n).loopback.toNat]
        ∧ (t.dev.site n).loopback.toNat = v.toNat % 2 ^ 15
        ∧ ((t.dev.site n).looping = true ↔ v.getLsbD 14 = true ∧ loopValid n v.toNat = true ∧ s.dev.siteState n = 3))
      ∧ (∀ a b, ∃ t, exec (.bist a b) s = .next t ∧ (t.dev.site n).passMap = b ∧ t.dev.out = s.dev.out ++ [.sideband sbTdo b.toNat])
      ∧ (∀ v, 56 ≤ n → n < 68 → s.dev.siteState n = 3 → ∃ t, exec (.hbm1500 v) s = .next t ∧ (t.dev.site n).wrapper = v
          ∧ t.dev.floor.pins.dieIr = 0x23 ∧ ∃ x, t.dev.out = s.dev.out ++ [.sideband sbTdo x])
      ∧ (∀ v, n < 56 ∨ n = 68 ∨ s.dev.siteState n ≠ 3 → exec (.hbm1500 v) s = exec .dieBypass s))
    ∧ (∀ k errors, allSites.find? (fun k => (s.dev.site k).looping) = some k → ∃ t, exec (.loopbackRunDone errors) s = .next t
      ∧ (t.dev.site k).looping = false ∧ (t.dev.site k).loopback.getLsbD 15 = true
      ∧ natBitsAt (t.dev.site k).loopback.toNat 16 32 = errors.toNat
      ∧ natBitsAt (t.dev.site k).loopback.toNat 0 15 = natBitsAt (s.dev.site k).loopback.toNat 0 15)
    ∧ ((∀ k < 69, (s.dev.site k).looping = false) → ∀ errors, exec (.loopbackRunDone errors) s = .next s)
    ∧ (∀ v : W64, ∃ t, exec (.flrTestCtlWrite v) s = .next t ∧ t.dev.get fFlrTestCtlSiteUnlock = natBitsAt v.toNat 0 1
      ∧ ((∃ p < 48, s.dev.partState p ≠ 0) → t.dev.get fFlrTestCtlFullUnlock = s.dev.get fFlrTestCtlFullUnlock)
      ∧ ((∀ p < 48, s.dev.partState p = 0) → t.dev.get fFlrTestCtlFullUnlock = natBitsAt v.toNat 1 1
        ∧ (s.dev.get fFlrTestCtlFullUnlock = 1 → v.getLsbD 1 = false → ∀ p < 48, t.dev.get fPrtStatBusy p = 0)))
    ∧ (∀ k : Fin 56, s.dev.siteState k.val = 3 → (s.dev.site k.val).before ≤ 5 → ∃ t, exec (.isolateReset k) s = .next t
      ∧ t.dev.siteState k.val = (s.dev.site k.val).before ∧ (t.dev.site k.val).looping = false ∧ (t.dev.site k.val).loopback = 0))

/-- R369, R370, R374, R408: a tile die that fails in service is WITHDRAWN, its cores run nothing and its walks are gone; the new site of a tile
cut-in that fails is FAILED and never a spare again. A tile that does not reset in time, and a host core that fails, re-initialise their partition, with the cause
in its record; the failed core no longer runs. -/
def Obligations.DieFaultResult : Prop :=
  (∀ (s : State) (n : Fin 56), s.dev.halted = false →
    let t0 := s.dev.get fFlrSiteStatLogicalTile n.val
    let inCutin := s.dev.minuet.tileCutins.any fun x => x.site = n.val
    (inCutin = true → ∃ t, exec (.tileDieFault n) s = .next t ∧ t.dev.siteState n.val = 5 ∧ n.val ∈ t.dev.floor.retired)
    ∧ (inCutin = false → s.dev.servesTile n.val = true → ∃ t, exec (.tileDieFault n) s = .next t ∧ t.dev.siteState n.val = 4
      ∧ (∀ k ∈ tileCores t0, (t.dev.core k).run = none) ∧ (∀ w ∈ t.dev.walks, w.tile ≠ t0)
      ∧ (∀ e < 120, (edgeEnds e).1 = n.val ∨ (edgeEnds e).2 = n.val → t.dev.get fFlrChsStatState e = 0))
    ∧ (inCutin = false → s.dev.servesTile n.val = false → exec (.tileDieFault n) s = .next s)
    ∧ (s.dev.siteState n.val ≠ 3 → s.dev.servesTile n.val = false → exec (.isolateReset n) s = .next s)
    ∧ (s.dev.siteState n.val ≠ 2 → s.dev.siteState n.val ≠ 4 → exec (.isolateTimeout n) s = .next s)
    ∧ (s.dev.get fFlrSiteStatRole n.val = 0 → s.dev.siteState n.val = 2 ∨ s.dev.siteState n.val = 4 →
      ∃ t, exec (.isolateTimeout n) s = .next t ∧ t.dev.siteState n.val = 4
        ∧ (∀ p, s.dev.tilePart t0 = some p → s.dev.partState p = 1 → (s.dev.part p).reinit = none → t.dev.partState p = 3
          ∧ ∃ r, (t.dev.part p).reinit = some r ∧ r.cause = 2 ∧ r.site = n.val)))
  ∧ (∀ (s : State) (h : Fin 96), s.dev.halted = false →
    (s.dev.host.running.contains h.val = false → exec (.hostCoreFault h) s = .next s)
    ∧ (s.dev.host.running.contains h.val = true →
      ∃ t, exec (.hostCoreFault h) s = .next t ∧ h.val ∉ t.dev.host.running ∧ h.val ∈ t.dev.host.failed
        ∧ (∀ p, s.dev.hartPart h.val = some p → s.dev.partState p = 1 → (s.dev.part p).reinit = none → t.dev.partState p = 3
          ∧ ∃ r, (t.dev.part p).reinit = some r ∧ r.cause = 3)))

/-- R362, R368, R375, R376, R397: a warm reset of a device past its reset leaves every partition FREE, no queue and no hart running, every home
in NACK mode, the former units on the scrub lists, and its cause in MNT_RESET_CAUSE; the faults of shared dies cause it. POWER
and MODULE resets clear WARM_COUNT too.  -/
def Obligations.ResetResult : Prop :=
  let cleared (t : State) : Prop := t.dev.halted = false ∧ (∀ p < 48, t.dev.partState p = 0) ∧ t.dev.queues = [] ∧ t.dev.host.running = []
    ∧ (∀ h < 13, t.dev.get fShcHomeCtlNackMode h = 1) ∧ t.dev.get fMntBootStatStage = 0 ∧ (∀ k, (t.dev.core k).run = none)
    ∧ t.dev.coh.lines = [] ∧ t.dev.coh.txns = []
  (∀ (s : State) (cause : BitVec 4) (site : BitVec 7) (agents : BitVec 14), s.dev.halted = false →
    (cause.toNat = 0 ∨ 5 < cause.toNat ∨ s.dev.get fMntBootStatStage = 0 → exec (.deviceWarmReset cause site agents) s = .next s)
    ∧ (1 ≤ cause.toNat → cause.toNat ≤ 5 → s.dev.get fMntBootStatStage ≠ 0 →
      ∃ t, exec (.deviceWarmReset cause site agents) s = .next t
      ∧ cleared t ∧ t.dev.get fMntResetCauseKind = 2 ∧ t.dev.get fMntResetCauseCause = cause.toNat
      ∧ t.dev.get fMntResetCauseSite = (if site.toNat < 69 then site.toNat else 127)
      ∧ t.dev.get fMntResetCauseAgent = agents.toNat
      ∧ t.dev.get fMntResetCauseWarmCount = min 65535 (s.dev.get fMntResetCauseWarmCount + 1)
      ∧ (∀ x ∈ s.dev.formerUnits, ∀ n ∈ t.dev.unitDies x.2,
          ∃ y ∈ t.dev.tempo.scrubs, y.inst = n ∧ y.unit = x.2 ∧ y.part = x.1 ∧ y.next = 0)
      ∧ (∀ k, (t.dev.core k).lanesFailed = (s.dev.core k).lanesFailed)
      ∧ t.dev.get fMntCoreStatCoreState = 0x55 ∧ t.dev.get fMntCoreStatExpiries = s.dev.get fMntCoreStatExpiries
      ∧ (∀ i < 12, t.dev.word .mntIdPubkey i 0 = s.dev.word .mntIdPubkey i 0)))
  ∧ (∀ (s : State), s.dev.halted = false →
    (∀ n : Fin 69, 56 ≤ n.val → n.val < 68 →
      exec (.sharedDieFault (.bridge n)) s = exec (.deviceWarmReset 1 (BitVec.ofNat 7 n.val) 0) s)
    ∧ exec (.sharedDieFault .hostComplex) s = exec (.deviceWarmReset 2 68 0) s
    ∧ (∀ a : BitVec 14, (∀ i < 13, a.getLsbD i = true → s.dev.dead i = false) → exec (.sharedDieFault (.deadAgents a)) s = .next s)
    ∧ (∀ i < 13, s.dev.dead i = true → ∀ a : BitVec 14, a.toNat = 2 ^ i →
        exec (.sharedDieFault (.deadAgents a)) s = exec (.deviceWarmReset 3 127 a) s))
  ∧ (∀ (s : State), (∃ t, exec .powerReset s = .next t ∧ cleared t ∧ t.dev.get fMntResetCauseKind = 0
        ∧ t.dev.get fMntResetCauseWarmCount = 0 ∧ t.dev.floor.pins.pwrOk = true)
    ∧ (∃ t, exec .moduleReset s = .next t ∧ cleared t ∧ t.dev.get fMntResetCauseKind = 1
        ∧ t.dev.get fMntResetCauseWarmCount = 0 ∧ t.dev.floor.pins.resetN = false))

/-- R302, R206, R228, R388, R389, R406: the mailbox answers each command once, and takes none while BUSY. SET_BEATS, slots, notices, declined and
standing cut-ins, and remap entries take effect where their rules hold, and are refused or BAD_ARG where they do not. -/
def Obligations.MailboxResult : Prop :=
  (∀ (s : State) (slot slots : BitVec 14) (arg : BitVec 28), s.dev.get fMntMboxStatBusy = 1 →
    ∀ c ∈ [Instr.setBeats slot slots arg, .logSlots slot slots arg, .telemSlots slot slots arg, .stageImage slot slots arg,
      .activate slot slots arg, .cutinApprove slot slots arg, .cutinDecline slot slots arg, .standingApproval slot slots arg,
      .providerNotice slot slots arg, .clearRemap slot slots arg, .warmReset slot slots arg], exec c s = .next s)
  ∧ (∀ (s : State) (slot slots : BitVec 14) (arg : BitVec 28), s.Asks →
    (∀ n bs d1, slots.toNat ≠ 0 → s.dev.payload slot.toNat 104 = (some bs, d1) → n < 13 →
      let w (i : Nat) := beatsWord i ((wordsOf bs 13).getD i 0)
      ((∀ i < 13, s.dev.beatsFit i (w i) = true) → ∃ t, exec (.setBeats slot slots arg) s = .next t ∧ s.Answered t 0
        ∧ smapGet? t.dev.tempo.beats n = some (BitVec.ofNat 64 (w n)))
      ∧ ((∃ i < 13, s.dev.beatsFit i (w i) = false) → ∃ t, exec (.setBeats slot slots arg) s = .next t ∧ s.Answered t 1
        ∧ t.dev.tempo.beats = s.dev.tempo.beats))
    ∧ (slots.toNat = 0 → ∃ t, exec (.setBeats slot slots arg) s = .next t ∧ s.Answered t 3 ∧ t.dev.tempo = s.dev.tempo)
    ∧ (slots.toNat ≠ 0 → (s.dev.payload slot.toNat 104).1 = none →
        ∃ t, exec (.setBeats slot slots arg) s = .next t ∧ s.Answered t 1 ∧ t.dev.tempo.beats = s.dev.tempo.beats))
  ∧ (∀ (s : State) (slot slots : BitVec 14) (arg : BitVec 28), s.Asks →
    let ns := (List.range slots.toNat).map (slot.toNat + ·)
    ((∀ n ∈ ns, s.dev.xwOffered n 3 = true) → ∃ t, exec (.logSlots slot slots arg) s = .next t ∧ s.Answered t 0
      ∧ (s.dev.minuet.logHeld = [] → t.dev.minuet.logSlots = s.dev.minuet.logSlots ++ ns ∧ t.dev.mem = s.dev.mem))
    ∧ ((∃ n ∈ ns, s.dev.xwOffered n 3 = false) → ∃ t, exec (.logSlots slot slots arg) s = .next t
      ∧ s.Answered t 1 ∧ t.dev.minuet = s.dev.minuet ∧ t.dev.mem = s.dev.mem)
    ∧ ((∀ n ∈ ns, s.dev.xwOffered n 4 = true) → ∃ t, exec (.telemSlots slot slots arg) s = .next t
      ∧ s.Answered t 0 ∧ t.dev.minuet.telemSlots = s.dev.minuet.telemSlots ++ ns ∧ t.dev.mem = s.dev.mem)
    ∧ ((∃ n ∈ ns, s.dev.xwOffered n 4 = false) → ∃ t, exec (.telemSlots slot slots arg) s = .next t
      ∧ s.Answered t 1 ∧ t.dev.minuet = s.dev.minuet ∧ t.dev.mem = s.dev.mem))
  ∧ (∀ (s : State) (slot slots : BitVec 14) (arg : BitVec 28), s.Asks →
    (s.dev.propEntry arg.toNat = none → (∃ t, exec (.cutinApprove slot slots arg) s = .next t ∧ s.Answered t 1
        ∧ t.dev.minuet = s.dev.minuet ∧ t.dev.cores = s.dev.cores)
      ∧ ∃ t, exec (.cutinDecline slot slots arg) s = .next t ∧ s.Answered t 1 ∧ t.dev.minuet = s.dev.minuet ∧ t.dev.cores = s.dev.cores)
    ∧ (∀ n, s.dev.propEntry arg.toNat = some n → s.dev.get fCutPropState n = 0 →
      let kind := s.dev.get fCutPropKind n
      let unit := s.dev.get fCutPropUnit n
      let k := s.dev.unitCore (s.dev.get fCutPropSite n) unit
      let gen := (s.dev.get fCutStatRecordGen + 1) % 2 ^ 32
      (kind = 6 → ∃ t, exec (.cutinApprove slot slots arg) s = .next t ∧ s.Answered t 2 ∧ t.dev.get fCutPropState n = 1
        ∧ t.dev.cores = s.dev.cores)
      ∧ (kind < 6 → ∃ t, exec (.cutinApprove slot slots arg) s = .next t ∧ s.Answered t 2 ∧ t.dev.get fCutStatRecordGen = gen
        ∧ t.dev.minuet.generation = s.dev.minuet.generation + 2 ∧ (kind = 0 → t.dev.core k = { s.dev.core k with lanePending := false }))
      ∧ (∃ t, exec (.cutinDecline slot slots arg) s = .next t ∧ s.Answered t 0 ∧ t.dev.get fCutStatRecordGen = gen
        ∧ t.dev.minuet.declined = s.dev.minuet.declined ++ [(kind, s.dev.get fCutPropSite n, unit, s.dev.get fCutPropReason n)]
        ∧ (kind = 0 → t.dev.core k = { s.dev.core k with lanePending := false, laneSpareLost := true })))
    ∧ (arg.toNat < 32 → ∃ t, exec (.standingApproval slot slots arg) s = .next t ∧ s.Answered t 0
      ∧ t.dev.get fCutStatStanding = arg.toNat ∧ t.dev.get fCutStatRecordGen = (s.dev.get fCutStatRecordGen + 1) % 2 ^ 32)
    ∧ (32 ≤ arg.toNat → ∃ t, exec (.standingApproval slot slots arg) s = .next t ∧ s.Answered t 3
      ∧ t.dev.get fCutStatStanding = s.dev.get fCutStatStanding)
    ∧ (let st := natBitsAt arg.toNat 0 5
      let u := natBitsAt arg.toNat 5 12
      (24 ≤ st → ∃ t, exec (.clearRemap slot slots arg) s = .next t ∧ s.Answered t 3 ∧ t.dev.hbm = s.dev.hbm)
      ∧ (st < 24 → (∀ r ∈ s.dev.hbm.remaps, ¬(r.stack = st ∧ r.reserve = u)) →
        ∃ t, exec (.clearRemap slot slots arg) s = .next t ∧ s.Answered t 1 ∧ t.dev.hbm = s.dev.hbm)
      ∧ (st < 24 → (∃ r ∈ s.dev.hbm.remaps, r.stack = st ∧ r.reserve = u) →
        ∃ t, exec (.clearRemap slot slots arg) s = .next t ∧ s.Answered t 0
          ∧ t.dev.hbm.remaps = s.dev.hbm.remaps.filter fun r => !(r.stack = st && r.reserve = u)))
    ∧ (let p := natBitsAt arg.toNat 0 6
      (p < 48 → slots.toNat = 1 → (s.dev.payload slot.toNat 40).1 = none →
        ∃ t, exec (.providerNotice slot slots arg) s = .next t ∧ s.Answered t 1 ∧ t.dev.fqProd p = s.dev.fqProd p) ∧
      (48 ≤ p ∨ slots.toNat ≠ 1 → ∃ t, exec (.providerNotice slot slots arg) s = .next t ∧ s.Answered t 3 ∧ t.dev.mem = s.dev.mem)
      ∧ (∀ bs d1, p < 48 → slots.toNat = 1 → s.dev.payload slot.toNat 40 = (some bs, d1) →
        let takes : Prop := (s.dev.get fMntNegStatEnabled p).testBit 0 = true ∧ s.dev.partState p ≠ 0 ∧ s.dev.noticeFits p = true
        (takes → ∃ t, exec (.providerNotice slot slots arg) s = .next t ∧ s.Answered t 0 ∧ t.dev.fqProd p = (s.dev.fqProd p + 1) % 2 ^ 32)
        ∧ (¬ takes → ∃ t, exec (.providerNotice slot slots arg) s = .next t ∧ s.Answered t 1 ∧ t.dev.fqProd p = s.dev.fqProd p)))
    ∧ (∃ t, exec (.warmReset slot slots arg) s = .next t ∧ t.dev.get fMntResetCauseKind = 2 ∧ t.dev.get fMntResetCauseCause = 5
      ∧ t.dev.queues = []))

/-- R388, R389, R391 to R395: a verified image replaces the staged one of its kind, and one whose key, signature or security version fails
leaves it. An activation waits for an emergency to end, needs a spare core, and commits a host image at once. Slots handed over for
telemetry and the log are used in order. A write of MNT_NEG_DRV sets RESULT and ENABLED from the version and the features offered. R382, R385: a watchdog that expires
on a core in service, or on one that boots, releases its locks, counts, ends a handover and restarts it; the third within 10 s withdraws it,
a spare takes its roles, and with no core left the power cycle is requested. The core that restarts serves again, and with the LOOPS role its clamps release. -/
def Obligations.FirmwareResult : Prop :=
  ((∀ (s : State) (slot slots : BitVec 14) (arg : BitVec 28), s.Asks →
     let m := s.dev.minuet
     (slots.toNat = 0 → ∃ t, exec (.stageImage slot slots arg) s = .next t ∧ s.Answered t 3 ∧ t.dev.minuet = m)
     ∧ (slots.toNat ≠ 0 → m.verifying ≠ none ∨ m.handover ≠ none ∨ s.dev.imageOwned slot.toNat slots.toNat = false →
         ∃ t, exec (.stageImage slot slots arg) s = .next t ∧ s.Answered t 1 ∧ t.dev.minuet = m)
     ∧ (slots.toNat ≠ 0 → m.verifying = none → m.handover = none → s.dev.imageOwned slot.toNat slots.toNat = true →
         ∃ t, exec (.stageImage slot slots arg) s = .next t ∧ s.Answered t 2 ∧ t.dev.get fMntFwStatState = 1
           ∧ t.dev.minuet = { (s.dev.xwTakeAll ((List.range slots.toNat).map (slot.toNat + ·))).minuet with
             verifying := some (slot.toNat, slots.toNat) })
     ∧ (m.verifying ≠ none ∨ m.handover ≠ none ∨ (m.staged = none ∧ s.dev.host.fwStaged = none) →
         ∃ t, exec (.activate slot slots arg) s = .next t ∧ s.Answered t 1 ∧ t.dev.minuet = m)
     ∧ (m.verifying = none → m.handover = none → m.staged ≠ none → ∃ t, exec (.activate slot slots arg) s = .next t ∧ s.Answered t 2
       ∧ (s.dev.get fMntPwrStatEmergency = 1 → t.dev.get fMntFwStatState = 5 ∧ t.dev.minuet = m)
       ∧ (s.dev.get fMntPwrStatEmergency = 0 → (∀ c < 6, s.dev.coreState c ≠ 0) → t.dev.get fMntFwStatState = 8 ∧ t.dev.minuet = m)
       ∧ (s.dev.get fMntPwrStatEmergency = 0 → (∃ c < 6, s.dev.coreState c = 0) → t.dev.get fMntFwStatState = 2
         ∧ t.dev.minuet = { m with handover := some { moved := none, slot := none } }))
     ∧ (∀ v, m.verifying = none → m.handover = none → m.staged = none → s.dev.host.fwStaged = some v →
         ∃ t, exec (.activate slot slots arg) s = .next t ∧ s.Answered t 2 ∧ t.dev.get fMntFwStatState = 4
           ∧ t.dev.host.fwRunning = v ∧ t.dev.host.fwStaged = none))
   ∧ (∀ (s : State) (v : ImageVerdict), s.dev.halted = false →
     (s.dev.minuet.verifying = none → exec (.imageVerified v) s = .next s)
     ∧ (∀ slot slots, s.dev.minuet.verifying = some (slot, slots) → ((List.range slots).map (slot + ·)).all s.dev.xwKept = false →
       ∃ t, exec (.imageVerified v) s = .next t ∧ t.dev.minuet.verifying = none ∧ t.dev.get fMntFwStatState = 0
         ∧ t.dev.minuet.staged = s.dev.minuet.staged ∧ t.dev.host.fwStaged = s.dev.host.fwStaged)
     ∧ (∀ slot slots, s.dev.minuet.verifying = some (slot, slots) → ((List.range slots).map (slot + ·)).all s.dev.xwKept = true →
       ∃ t, exec (.imageVerified v) s = .next t ∧ t.dev.minuet.verifying = none
         ∧ (v.keyOk = false ∨ v.signatureOk = false → t.dev.get fMntFwStatState = 6 ∧ t.dev.minuet.staged = s.dev.minuet.staged
           ∧ t.dev.host.fwStaged = s.dev.host.fwStaged)
         ∧ (v.keyOk = true → v.signatureOk = true → v.kind = 1 ∨ v.kind = 2 → v.securityVersion.toNat < s.dev.minuet.minSecurity →
           t.dev.get fMntFwStatState = 7 ∧ t.dev.minuet.staged = s.dev.minuet.staged ∧ t.dev.host.fwStaged = s.dev.host.fwStaged)
         ∧ (v.keyOk = true → v.signatureOk = true → s.dev.minuet.minSecurity ≤ v.securityVersion.toNat → t.dev.get fMntFwStatState
               = (if v.kind = 1 ∨ v.kind = 2 then 0 else 6)
           ∧ (v.kind = 1 → t.dev.minuet.staged
               = some { version := v.version.toNat, security := v.securityVersion.toNat, handoff := v.handoffVersion.toNat })
           ∧ (v.kind = 2 → t.dev.host.fwStaged = some v.version.toNat ∧ t.dev.minuet.staged = s.dev.minuet.staged))))
   ∧ (∀ (s : State), s.dev.halted = false →
     let restarts : Prop := s.dev.get fMntFwStatState = 5 ∧ s.dev.get fMntPwrStatClear100ms = 1 ∧ s.dev.minuet.staged ≠ none
     (¬ restarts → exec .activationRestart s = .next s)
     ∧ (restarts → (∃ c < 6, s.dev.coreState c = 0) → ∃ t, exec .activationRestart s = .next t ∧ t.dev.get fMntFwStatState = 2
       ∧ t.dev.minuet.handover = some { moved := none, slot := none })
     ∧ (restarts → (∀ c < 6, s.dev.coreState c ≠ 0) → ∃ t, exec .activationRestart s = .next t ∧ t.dev.get fMntFwStatState = 8
       ∧ t.dev.minuet = s.dev.minuet)
     ∧ (s.dev.minuet.telemSlots = [] → exec .telemetryTick s = .next s)
     ∧ (∀ n rest, s.dev.minuet.telemSlots = n :: rest →
       (s.dev.xwKept n = true → s.dev.spend 12 actTelem 64 = none → exec .telemetryTick s = .next s)
       ∧ (s.dev.xwKept n = false ∨ s.dev.spend 12 actTelem 64 ≠ none → ∃ t, exec .telemetryTick s = .next t
         ∧ t.dev.minuet.telemSlots = rest ∧ t.dev.cores = s.dev.cores ∧ t.dev.queues = s.dev.queues))
     ∧ (s.dev.minuet.logFill = 0 → exec .logFlushTick s = .next s)
     ∧ (∀ n rest, s.dev.minuet.logFill ≠ 0 → s.dev.minuet.logSlots = n :: rest → s.dev.xwKept n = false →
       ∃ t, exec .logFlushTick s = .next t ∧ s.dev.minuet.logSeq < t.dev.minuet.logSeq)
     ∧ (∀ n rest, s.dev.minuet.logFill ≠ 0 → s.dev.minuet.logSlots = n :: rest → s.dev.xwKept n = true →
       ∃ t, exec .logFlushTick s = .next t ∧ t.dev.minuet.logSlots = rest ∧ t.dev.minuet.logFill = 0
         ∧ t.dev.cores = s.dev.cores ∧ t.dev.queues = s.dev.queues))
   ∧ (∀ (s : State) (p : Fin 48) (v : W64), s.dev.halted = false →
     let offer := Nat.land (s.dev.get fMntNegMaskAllow p.val) 7
     let ok : Prop := natBitsAt v.toNat 8 8 = 1 ∧ Nat.land (natBitsAt v.toNat 32 16) offer = natBitsAt v.toNat 32 16
     ∃ t, exec (.mntNegDrvWrite p v) s = .next t
       ∧ (ok → t.dev.get fMntNegStatResult p.val = 1
         ∧ t.dev.get fMntNegStatEnabled p.val = Nat.land (natBitsAt v.toNat 16 16) offer)
       ∧ (¬ ok → t.dev.get fMntNegStatResult p.val = 2 ∧ t.dev.get fMntNegStatEnabled p.val = 0)
       ∧ ({ t.dev with regs := s.dev.regs } : Dev) = s.dev))
  ∧ (∀ (s : State) (c : Fin 6), s.dev.halted = false →
       (s.dev.coreState c.val ≠ 1 → s.dev.minuet.handover = none → ∀ b, exec (.watchdogExpiry c b) s = .next s)
       ∧ (s.dev.coreState c.val = 1 → ∀ b, ∃ t, exec (.watchdogExpiry c b) s = .next t
         ∧ t.dev.get fMntCoreStatExpiries = min 65535 (s.dev.get fMntCoreStatExpiries + 1)
         ∧ t.dev.minuet.locks = s.dev.minuet.locks.filter (fun x => x.2 ≠ c.val) ∧ t.dev.minuet.handover = none
         ∧ t.dev.coreState c.val = (if b then 3 else 2)
         ∧ (b = false → t.dev.minuet.roles = s.dev.minuet.roles)
         ∧ (b = true → c.val ∈ t.dev.minuet.lostCores)
         ∧ (b = true → c.val ∉ s.dev.minuet.roles → t.dev.minuet.roles = s.dev.minuet.roles
           ∧ ∀ k < 6, k ≠ c.val → t.dev.coreState k = s.dev.coreState k)
         ∧ (∀ k < 6, b = true → c.val ∈ s.dev.minuet.roles → k ≠ c.val → s.dev.coreState k = 0 → (∀ j < k, s.dev.coreState j ≠ 0) →
           t.dev.coreState k = 1 ∧ t.dev.minuet.roles = s.dev.minuet.roles.map fun r => if r = c.val then k else r)
         ∧ (b = true → c.val ∈ s.dev.minuet.roles → (∀ k < 6, k ≠ c.val → s.dev.coreState k = 3) → s.dev.minuet.powerCycle = none →
           t.dev.halted = true ∧ t.dev.minuet.powerCycle = some .noMinuet))
       ∧ (s.dev.coreState c.val = 0 → s.dev.minuet.handover ≠ none → ∀ b, ∃ t, exec (.watchdogExpiry c b) s = .next t
         ∧ t.dev.get fMntCoreStatExpiries = min 65535 (s.dev.get fMntCoreStatExpiries + 1) ∧ t.dev.minuet.handover = none
         ∧ t.dev.coreState c.val = if b then 3 else 0)
       ∧ (s.dev.coreState c.val ≠ 2 → exec (.minuetCoreRestart c) s = .next s)
       ∧ (s.dev.coreState c.val = 2 → ∃ t, exec (.minuetCoreRestart c) s = .next t ∧ t.dev.coreState c.val = 1
         ∧ (s.dev.loopsCore = c.val → t.dev.get fMntPwrStatLoopsHeld = 0
           ∧ ∀ n < 69, (s.dev.site n).hot = false → s.dev.get fMntPwrStatLoopsHeld = 1 → t.dev.get fFlrSiteStatClamp n = 0)))

/-- R360, R383 to R387, R422, R429: clamps, brake and supply bring dies to the safe operating point and begin or end an emergency; the loops lower or raise a
tile's divider by one step. Supply out of range and a level 4 request stop the device. -/
def Obligations.PowerResult : Prop :=
  (∀ (s : State) (n : Fin 69) (temp : Byte), s.dev.halted = false →
    exec (.thermalClampRelease n temp) s = exec (.thermalClamp n temp) s
    ∧ ∃ t, exec (.thermalClamp n temp) s = .next t ∧ t.dev.get fFlrSiteStatTemp n.val = temp.toNat
      ∧ (103 ≤ temp.toNat → t.dev.get fFlrSiteStatClamp n.val = 1 ∧ t.dev.get fMntPwrStatEmergency = 1
        ∧ t.dev.floor.pins.thermAlertN = false ∧ (n.val < 56 → t.dev.get fFlrSiteStatCoreDiv n.val = 16))
      ∧ (temp.toNat < 100 → (s.dev.site n.val).hot = true →
        t.dev.get fFlrSiteStatClamp n.val = (if s.dev.get fMntPwrStatLoopsHeld = 1 then s.dev.get fFlrSiteStatClamp n.val else 0))
      ∧ (100 ≤ temp.toNat → temp.toNat < 103 → t = s.withDev (s.dev.set fFlrSiteStatTemp temp.toNat n.val)))
  ∧ (∀ (s : State), s.dev.halted = false → ∃ t, exec .loopsMissedClamp s = .next t ∧ t.dev.get fMntPwrStatLoopsHeld = 1
    ∧ (∀ n < 69, s.dev.siteState n = 2 → t.dev.get fFlrSiteStatClamp n = 1 ∧ t.dev.get fMntPwrStatEmergency = 1
        ∧ (n < 56 → t.dev.get fFlrSiteStatCoreDiv n = 16)))
  ∧ (∀ (s : State), s.dev.halted = false → s.dev.floor.pins.resetN = true →
    (∃ t, exec .pwrBrakeAssert s = .next t ∧ t.dev.floor.pins.brakeN = false ∧ t.dev.get fMntPwrStatBrake = 1
      ∧ t.dev.get fMntPwrStatEmergency = 1 ∧ (∀ n < 56, s.dev.siteState n = 2 → t.dev.get fFlrSiteStatCoreDiv n = 16))
    ∧ (∃ t, exec .pwrBrakeDeassert s = .next t ∧ t.dev.floor.pins.brakeN = true ∧ t.dev.get fMntPwrStatBrake = 0
      ∧ (t.dev.get fMntPwrStatEmergency = 1 ↔ s.dev.minuet.excursion = true ∨ ∃ n < 69, s.dev.get fFlrSiteStatClamp n = 1)))
  ∧ (∀ (s : State) (qv : Byte), s.dev.halted = false →
    (supplyTolerated qv.toNat = true → exec (.supplyExcursionEnd qv) s = exec (.supplyExcursion qv) s
      ∧ ∃ t, exec (.supplyExcursion qv) s = .next t ∧ t.dev.get fMntPwrStatSupply = qv.toNat ∧ t.dev.get fMntPwrStatEmergency = 1
        ∧ (∀ n < 56, s.dev.siteState n = 2 → t.dev.get fFlrSiteStatCoreDiv n = 16))
    ∧ (192 ≤ qv.toNat → qv.toNat ≤ 232 → ∃ t, exec (.supplyExcursionEnd qv) s = .next t ∧ t.dev.get fMntPwrStatSupply = qv.toNat
        ∧ t.dev.minuet.excursion = false
        ∧ (t.dev.get fMntPwrStatEmergency = 1 ↔ s.dev.get fMntPwrStatBrake = 1 ∨ ∃ n < 69, s.dev.get fFlrSiteStatClamp n = 1))
    ∧ (qv.toNat < 184 ∨ 240 < qv.toNat → exec (.supplyExcursion qv) s = exec (.supplyOutOfRange qv) s)
    ∧ (s.dev.minuet.powerCycle = none → ∃ t, exec (.supplyOutOfRange qv) s = .next t ∧ t.dev.floor.pins.pwrOk = false
        ∧ t.dev.get fMntPwrStatSupply = qv.toNat ∧ t.dev.halted = true ∧ t.dev.minuet.powerCycle = some .supply)
    ∧ (∀ c, s.dev.minuet.powerCycle = none → ∃ t, exec (.powerCycleRequest c) s = .next t ∧ t.dev.halted = true
        ∧ t.dev.minuet.powerCycle = some c ∧ t.dev.floor.pins.thermAlertN = false ∧ t.dev.cores = s.dev.cores ∧ t.dev.mem = s.dev.mem))
  ∧ (∀ (s : State) (temps : List (Fin 69 × Byte)), s.dev.halted = false →
    let d1 := temps.foldl (fun d x => d.set fFlrSiteStatTemp x.2.toNat x.1.val) s.dev
    (s.dev.loopsRun = false → exec (.thermalLoopTick temps) s = .next (s.withDev d1))
    ∧ (s.dev.loopsRun = true → s.dev.get fMntPwrStatLoopsHeld = 0 → ∃ t, exec (.thermalLoopTick temps) s = .next t
      ∧ (∀ n < 56, s.dev.siteState n = 2 → let div := s.dev.get fFlrSiteStatCoreDiv n
        t.dev.get fFlrSiteStatCoreDiv n = if s.dev.siteHeld n = true then 16
          else if d1.tileHot n = true then divDown div
          else if d1.tileCool n = true ∧ s.dev.get fMntPwrStatCapThrottle = 0 ∧ 8 < div ∧ 9 ≤ s.dev.raiseMs n then divUp div else div)
      ∧ t.dev.mem = s.dev.mem ∧ t.dev.cores = s.dev.cores))
  ∧ (∀ (s : State) (watts : BitVec 13), s.dev.halted = false →
    let cap := s.dev.get fMntPwrCtlCapW
    (∃ t, exec (.powerLoopTick watts) s = .next t ∧ t.dev.get fMntPwrStatInputW = watts.toNat
      ∧ (s.dev.loopsRun = true → cap < watts.toNat → t.dev.get fMntPwrStatCapThrottle = 1
        ∧ ∀ n < 56, s.dev.siteState n = 2 → t.dev.get fFlrSiteStatCoreDiv n = divDown (s.dev.get fFlrSiteStatCoreDiv n))
      ∧ (s.dev.loopsRun = true → watts.toNat ≤ cap → cap * 95 < watts.toNat * 100 ∨ s.dev.raiseMs capKey < 9 →
        ∀ n < 56, t.dev.get fFlrSiteStatCoreDiv n = s.dev.get fFlrSiteStatCoreDiv n)
      ∧ (s.dev.loopsRun = true → watts.toNat * 100 ≤ cap * 95 → s.dev.get fMntPwrStatCapThrottle = 1 → 9 ≤ s.dev.raiseMs capKey →
        ∀ n ∈ s.dev.risers, t.dev.get fFlrSiteStatCoreDiv n = divUp (s.dev.get fFlrSiteStatCoreDiv n))))

/-- R376, R397, R398, R402, R403: a release of reset with the supply in range and REF present brings the device to walk-through, or stops it at the stage that fails; a
second one is none. A stack retrains once; full service begins when every stack, the Promenade and every port have finished, with the homes out of NACK
mode and every partition promoted. -/
def Obligations.BringUpResult : Prop :=
  (∀ (s : State) (b : BringUp), let pins := { s.dev.floor.pins with resetN := true }
    let d1 := s.dev.setFloor { s.dev.floor with pins := pins, refLost := !b.refPresent }
    let fit : Prop := ∃ c < 6, c ∉ s.dev.minuet.lostCores
    (s.dev.get fMntBootStatStage ≠ 0 ∨ s.dev.floor.pins.pwrOk = false ∨ b.refPresent = false →
      exec (.resetRelease b) s = .next (s.withDev d1))
    ∧ (s.dev.get fMntBootStatStage = 0 → s.dev.floor.pins.pwrOk = true → b.refPresent = true → s.dev.minuet.powerCycle = none →
      ∃ t, exec (.resetRelease b) s = .next t
      ∧ (b.imageOk = false → t.dev.get fMntBootStatStage = 7 ∧ t.dev.halted = true)
      ∧ (b.imageOk = true → b.recordOk = false → t.dev.get fMntBootStatStage = 6 ∧ t.dev.halted = true)
      ∧ (b.imageOk = true → b.recordOk = true → ¬ fit → t.dev.halted = true ∧ t.dev.minuet.powerCycle = some .noMinuet)
      ∧ (b.imageOk = true → b.recordOk = true → fit → b.diesOk = false → t.dev.get fMntBootStatStage = 8 ∧ t.dev.halted = true)
      ∧ (b.imageOk = true → b.recordOk = true → fit → b.diesOk = true → t.dev.get fMntBootStatStage = 4
        ∧ t.dev.get fMntBootStatWalkMs = b.walkMs.toNat ∧ t.dev.get fUlkStatState = 1
        ∧ (∀ n < 69, 56 ≤ n → t.dev.siteState n = 2)
        ∧ (∀ x ∈ s.dev.floor.unfit, x.1 < 56 → x.2 = 4 ∨ x.2 = 5 → (∀ y ∈ s.dev.floor.unfit, y.1 = x.1 → y = x) →
            t.dev.siteState x.1 = x.2)
        ∧ (∀ n < 56, s.dev.get fFlrSiteStatRole n = 0 → s.dev.siteState n = 0 → (∀ x ∈ s.dev.floor.unfit, x.1 ≠ n) →
            t.dev.siteState n = (if b.failedSites.getLsbD n then 5 else 2)
            ∧ (b.failedSites.getLsbD n = false → t.dev.get fFlrSiteStatCoreDiv n = 16)))
      ∧ (b.imageOk = true → b.recordOk = true → s.dev.get fMntResetCauseKind ≠ 2 →
          t.dev.get fMntIdStatIdValid = (if b.idOk then 1 else 0))))
  ∧ (∀ (s : State) (k : Fin 24) (ok : Bool), s.dev.halted = false →
    let full := s.dev.get fMntBootStatStacksFull
    (s.dev.get fMntBootStatStage ≠ 4 ∨ full.testBit k.val = true ∨ k.val ∈ s.dev.hbm.slow → exec (.stackRetrain k ok) s = .next s)
    ∧ (s.dev.get fMntBootStatStage = 4 → full.testBit k.val = false → k.val ∉ s.dev.hbm.slow → ∃ t, exec (.stackRetrain k ok) s = .next t
      ∧ (∀ i < 24, (t.dev.get fMntBootStatStacksFull).testBit i = (full.testBit i || (ok && i == k.val)))
      ∧ (k.val ∈ t.dev.hbm.slow ↔ ok = false)))
  ∧ (∀ (s : State) (ms : BitVec 16), s.dev.halted = false →
    (s.dev.fullReady = false → exec (.fullServiceEntry ms) s = .next s)
    ∧ (s.dev.fullReady = true → ∃ t, exec (.fullServiceEntry ms) s = .next t ∧ t.dev.get fMntBootStatStage = 5
      ∧ t.dev.get fMntBootStatFullMs = ms.toNat
      ∧ ((∀ n < 69, s.dev.siteState n ≠ 3) → (∀ x ∈ s.dev.parts, x.2.reinit = none) → ∀ h < 13, t.dev.get fShcHomeCtlNackMode h = 0)
      ∧ (∀ p < 48, s.dev.partState p ≠ 0 → t.dev.get fPrtServiceLevel p = 1
          ∧ natBitsAt (t.dev.word .prtService p 0) 8 56 = (s.dev.cycleCounter p).toNat % 2 ^ 56)
      ∧ (∀ n < 56, s.dev.siteState n = 2 → s.dev.siteHeld n = false → s.dev.get fMntPwrStatCapThrottle = 0 →
          (∀ k ∈ siteStacks n, s.dev.get fHbmStackStatThrottle k = 0) → t.dev.get fFlrSiteStatCoreDiv n = 8)))
/-- R405 to R409, R430: in full service an approved tile cut-in takes the lowest spare of the quadrant into reset, in a cut-in beat of its bridge, waits while a command that is not
restartable holds its tile, and once none holds it moves the tile there and retires its old site. A monitor's finding raises a proposal. The I3C target takes one
dynamic address and answers its status block there. -/
def Obligations.CutinResult : Prop :=
  (∀ (s : State) (tile : Fin 48), s.dev.halted = false →
    let m := s.dev.minuet
    let run := m.tileCutins.find? fun x => x.tile = tile.val
    (s.dev.get fMntBootStatStage ≠ 5 ∨ (run = none ∧ s.dev.cutinEntry tile.val = none) → exec (.tileCutin tile) s = .next s)
    ∧ (∀ e n, s.dev.get fMntBootStatStage = 5 → s.dev.cutinEntry tile.val = some e → s.dev.spareSite (tile.val / 12) = some n →
      (∀ x ∈ m.tileCutins, x.tile / 12 ≠ tile.val / 12) →
      (s.dev.beatLeft (calibrator n) 7 < 975 → exec (.tileCutin tile) s = .next s)
      ∧ (975 ≤ s.dev.beatLeft (calibrator n) 7 → ∃ t, exec (.tileCutin tile) s = .next t ∧ t.dev.siteState n = 1
        ∧ t.dev.get fCutPropState e = 2
        ∧ t.dev.minuet.tileCutins = m.tileCutins ++ [{ tile := tile.val, site := n, entry := e, stopped := false }]))
    ∧ (∀ x, s.dev.get fMntBootStatStage = 5 → run = some x → x.stopped = false →
      (∃ c ∈ s.dev.tileHolders tile.val, c.2.restartable = false) → m.tileCutins.all (fun y => y.tile ≠ tile.val || !y.stopped) = true →
      exec (.tileCutin tile) s = .next s)
    ∧ (∀ x old, s.dev.get fMntBootStatStage = 5 → run = some x → x.stopped = true → s.dev.tileHolders tile.val = [] →
      s.dev.siteOf tile.val = some old → old ≠ x.site → x.site < 56 → ∃ t, exec (.tileCutin tile) s = .next t
        ∧ t.dev.get fFlrSiteStatRole x.site = 0 ∧ t.dev.get fFlrSiteStatLogicalTile x.site = tile.val ∧ t.dev.siteState x.site = 2
        ∧ t.dev.get fFlrSiteStatRole old = 1 ∧ t.dev.get fFlrSiteStatLogicalTile old = 63 ∧ t.dev.siteState old = 4
        ∧ old ∈ t.dev.floor.retired ∧ t.dev.get fCutStatRecordGen = (s.dev.get fCutStatRecordGen + 1) % 2 ^ 32
        ∧ (∀ k ∈ tileCores tile.val, t.dev.core k = Core.built) ∧ ∀ y ∈ t.dev.minuet.tileCutins, y.tile ≠ tile.val))
  ∧ (∀ (s : State) (f : WearFinding), s.dev.halted = false →
    let kind := f.kind.toNat
    let unit := f.unit.toNat
    let reason := f.reason.toNat
    let site := if kind = 6 then (s.dev.siteOf unit).getD noSite else noSite
    let raises (t : State) : Prop := (kind, site, unit, reason) ∉ s.dev.minuet.declined → s.dev.spareLeft kind unit = true →
      t.dev.proposed kind site unit = true
    (kind = 6 → reason = 2 ∨ reason = 3 → unit < 48 → ∃ t, exec (.wearMonitor f) s = .next t ∧ raises t)
    ∧ (kind = 5 → reason = 2 → unit < 96 → ∃ t, exec (.wearMonitor f) s = .next t ∧ raises t)
    ∧ (kind = 3 → reason = 4 → ∃ t, exec (.wearMonitor f) s = .next t
        ∧ (natBitsAt unit 2 4 < 10 → (t.dev.get fFlrLaserStatWeak (natBitsAt unit 0 2)).testBit (natBitsAt unit 2 4) = true))
    ∧ (kind < 3 ∨ kind = 4 ∨ kind = 7 → exec (.wearMonitor f) s = .next s)
    ∧ (kind = 6 → (reason ≠ 2 ∧ reason ≠ 3) ∨ 48 ≤ unit → exec (.wearMonitor f) s = .next s)
    ∧ (kind = 5 → reason ≠ 2 ∨ 96 ≤ unit → exec (.wearMonitor f) s = .next s)
    ∧ (kind = 3 → reason ≠ 4 → exec (.wearMonitor f) s = .next s))
  ∧ (∀ (s : State) (a : BitVec 7),
    let pins := s.dev.floor.pins
    exec (.setdasa a) s = exec (.entdaa a) s
    ∧ (pins.resetN = false ∨ pins.i3cAddr ≠ none → exec (.entdaa a) s = .next s)
    ∧ (pins.resetN = true → pins.i3cAddr = none → ∃ t, exec (.entdaa a) s = .next t ∧ t.dev.floor.pins.i3cAddr = some a.toNat
        ∧ t.dev.out = s.dev.out ++ [.sideband sbAddr a.toNat] ∧ t.dev.regs = s.dev.regs)
    ∧ (pins.resetN = false ∨ pins.i3cAddr = none → exec .i3cPrivateRead s = .next s)
    ∧ (pins.resetN = true → pins.i3cAddr ≠ none → ∃ t x, exec .i3cPrivateRead s = .next t
        ∧ t.dev.out = s.dev.out ++ [.sideband sbRead x] ∧ x < 2 ^ 128 ∧ natBitsAt x 0 8 = s.dev.i3cState
        ∧ natBitsAt x 8 8 = s.dev.i3cFlags
        ∧ natBitsAt x 16 16 = s.dev.get fMntPwrStatInputW ∧ natBitsAt x 32 8 = s.dev.get fMntPwrStatSupply
        ∧ natBitsAt x 64 8 = (if s.dev.variantB = true then 1 else 0) ∧ t.dev.regs = s.dev.regs ∧ t.dev.mem = s.dev.mem))

/-- R376, R398: a device held at level 4 does nothing more: every command but the events at its pins, its sideband and its module TAP, and stand-alone test
once bring-up has stopped, leaves it as it is, and only a POWER or MODULE reset ends the hold. -/
def Obligations.LevelFourHolds : Prop :=
  (∀ (c : Instr) (s : State), s.dev.halted = true → atPins c = false → (inTest c = true → s.dev.get fMntBootStatStage < 6) →
    exec c s = .next s)
  ∧ (∀ (c : Instr) (s t : State), s.dev.halted = true → exec c s = .next t → c ≠ .powerReset → c ≠ .moduleReset → t.dev.halted = true)

/-- R56, R58, R62, R63: the encoding of every well-formed Jular instruction, at every value of its fields, decodes to it, and a word decodes only to a well-formed
instruction whose encoding decodes to it again. -/
def Obligations.EncodeDecodeAgree : Prop :=
  (∀ (i : Instr) (x : W64), i.wf = true → encodeJular i = some x → ∃ w, decodeJular w x = some i)
  ∧ (∀ (w : Who) (x : W64) (i : Instr), decodeJular w x = some i →
      i.wf = true ∧ ∃ y, encodeJular i = some y ∧ decodeJular w y = some i)

/-- R56, R62, R63: words written out from the encoding tables stand for their instructions. -/
def Obligations.ExampleWords : Prop :=
  ∀ w : Who,
    let always : Pred := { ps := 7, pn := false }
    decodeJular w 0xC1C0000000000000 = some (.nop w { pr := always, offb := 0, offa := 0 })
    ∧ decodeJular w 0xC1C8000000000000 = some (.exit w { pr := always, offb := 0, offa := 0 })
    ∧ decodeJular w 0x8A8284149A000800 = some (.atomAdd w
        { pr := { ps := 2, pn := true }, vr := 10, ub := 4, vx := 20, am := 2, scope := 3, size := 2, sem := 0, off16 := 64, fn := 0 })

/-- Every step keeps the canonical form of memory: addresses strictly rising, no listed zero (the form is the model's own). -/
def Obligations.StepKeepsMemory : Prop := ∀ s t : State, s.MemOk → step s = .next t → t.MemOk

/-- R7, R11, R362, R397: after reset no command waits, memory lists nothing and is in its canonical form, no queue, hart or core runs, every register that the
configuration record does not give holds the reset values of its fields, every partition is FREE and every home in NACK mode. -/
def Obligations.ResetState : Prop :=
  State.reset.pending = [] ∧ State.reset.dev.mem = [] ∧ State.reset.MemOk ∧ State.reset.dev.queues = []
  ∧ State.reset.dev.host.running = [] ∧ (∀ k, (State.reset.dev.core k).run = none) ∧ State.reset.dev.halted = false
  ∧ (∀ r a b, smapGet? resetRegs (regKey r a b) = none → ∀ f ∈ regFields r, natBitsAt (State.reset.dev.word r a b) f.lo f.w = f.reset)
  ∧ (∀ p < 48, State.reset.dev.partState p = 0) ∧ (∀ h < 13, State.reset.dev.get fShcHomeCtlNackMode h = 1)
  ∧ (∀ n < 69, State.reset.dev.siteState n = 0)
end

