-- ==== Sys2Proof/Laws/State.lean ====
section
/-! SUPPORT. What each update of the device leaves as it was, field by field, and what a written key reads as: so that no later proof
unfolds a record update. -/

namespace Sys2Proof.Machine

open Sys2Proof

/-! ### Sparse data -/

@[simp] theorem smapGet?_put_same {α : Type} (m : SMap α) (j : Nat) (x : α) : smapGet? (smapPut m j x) j = some x := by
  induction m with
  | nil => simp [smapPut, smapGet?]
  | cons h t ih =>
    obtain ⟨k, v⟩ := h
    simp only [smapPut]
    split
    · simp [smapGet?]
    · split
      · simp [smapGet?]
      · rename_i h1 h2
        simp [smapGet?, Ne.symm h2, ih]

theorem smapGet?_put_other {α : Type} (m : SMap α) {i j : Nat} (h : i ≠ j) (x : α) :
    smapGet? (smapPut m j x) i = smapGet? m i := by
  induction m with
  | nil => simp [smapPut, smapGet?, Ne.symm h]
  | cons c t ih =>
    obtain ⟨k, v⟩ := c
    simp only [smapPut]
    split
    · simp [smapGet?, Ne.symm h]
    · split
      · rename_i _ h2
        subst h2
        simp [smapGet?, Ne.symm h]
      · simp [smapGet?, ih]

@[simp] theorem smapGet_put_same {α : Type} (m : SMap α) (j : Nat) (x y : α) : smapGet (smapPut m j x) j y = x := by
  simp [smapGet]

theorem smapGet_put_other {α : Type} (m : SMap α) {i j : Nat} (h : i ≠ j) (x y : α) :
    smapGet (smapPut m j x) i y = smapGet m i y := by
  simp [smapGet, smapGet?_put_other m h]

/-! ### Fields of the device after one update -/

@[simp] theorem Dev.setCore_mem (d : Dev) (k : Nat) (x : Core) : (d.setCore k x).mem = d.mem := rfl
@[simp] theorem Dev.setCore_poison (d : Dev) (k : Nat) (x : Core) : (d.setCore k x).poison = d.poison := rfl
@[simp] theorem Dev.setCore_regs (d : Dev) (k : Nat) (x : Core) : (d.setCore k x).regs = d.regs := rfl
@[simp] theorem Dev.setCore_written (d : Dev) (k : Nat) (x : Core) : (d.setCore k x).written = d.written := rfl
@[simp] theorem Dev.setCore_rcache (d : Dev) (k : Nat) (x : Core) : (d.setCore k x).rcache = d.rcache := rfl
@[simp] theorem Dev.setCore_walks (d : Dev) (k : Nat) (x : Core) : (d.setCore k x).walks = d.walks := rfl
@[simp] theorem Dev.setCore_queues (d : Dev) (k : Nat) (x : Core) : (d.setCore k x).queues = d.queues := rfl
@[simp] theorem Dev.setCore_parts (d : Dev) (k : Nat) (x : Core) : (d.setCore k x).parts = d.parts := rfl
@[simp] theorem Dev.setCore_coh (d : Dev) (k : Nat) (x : Core) : (d.setCore k x).coh = d.coh := rfl
@[simp] theorem Dev.setCore_hbm (d : Dev) (k : Nat) (x : Core) : (d.setCore k x).hbm = d.hbm := rfl
@[simp] theorem Dev.setCore_tempo (d : Dev) (k : Nat) (x : Core) : (d.setCore k x).tempo = d.tempo := rfl
@[simp] theorem Dev.setCore_host (d : Dev) (k : Nat) (x : Core) : (d.setCore k x).host = d.host := rfl
@[simp] theorem Dev.setCore_reel (d : Dev) (k : Nat) (x : Core) : (d.setCore k x).reel = d.reel := rfl
@[simp] theorem Dev.setCore_floor (d : Dev) (k : Nat) (x : Core) : (d.setCore k x).floor = d.floor := rfl
@[simp] theorem Dev.setCore_minuet (d : Dev) (k : Nat) (x : Core) : (d.setCore k x).minuet = d.minuet := rfl
@[simp] theorem Dev.setCore_out (d : Dev) (k : Nat) (x : Core) : (d.setCore k x).out = d.out := rfl
@[simp] theorem Dev.setCore_variantB (d : Dev) (k : Nat) (x : Core) : (d.setCore k x).variantB = d.variantB := rfl
@[simp] theorem Dev.setCore_fresh (d : Dev) (k : Nat) (x : Core) : (d.setCore k x).fresh = d.fresh := rfl
@[simp] theorem Dev.setCore_clock (d : Dev) (k : Nat) (x : Core) : (d.setCore k x).clock = d.clock := rfl
@[simp] theorem Dev.setCore_halted (d : Dev) (k : Nat) (x : Core) : (d.setCore k x).halted = d.halted := rfl

@[simp] theorem Dev.setPart_mem (d : Dev) (p : Nat) (x : Part) : (d.setPart p x).mem = d.mem := rfl
@[simp] theorem Dev.setPart_poison (d : Dev) (p : Nat) (x : Part) : (d.setPart p x).poison = d.poison := rfl
@[simp] theorem Dev.setPart_regs (d : Dev) (p : Nat) (x : Part) : (d.setPart p x).regs = d.regs := rfl
@[simp] theorem Dev.setPart_written (d : Dev) (p : Nat) (x : Part) : (d.setPart p x).written = d.written := rfl
@[simp] theorem Dev.setPart_cores (d : Dev) (p : Nat) (x : Part) : (d.setPart p x).cores = d.cores := rfl
@[simp] theorem Dev.setPart_rcache (d : Dev) (p : Nat) (x : Part) : (d.setPart p x).rcache = d.rcache := rfl
@[simp] theorem Dev.setPart_walks (d : Dev) (p : Nat) (x : Part) : (d.setPart p x).walks = d.walks := rfl
@[simp] theorem Dev.setPart_queues (d : Dev) (p : Nat) (x : Part) : (d.setPart p x).queues = d.queues := rfl
@[simp] theorem Dev.setPart_coh (d : Dev) (p : Nat) (x : Part) : (d.setPart p x).coh = d.coh := rfl
@[simp] theorem Dev.setPart_hbm (d : Dev) (p : Nat) (x : Part) : (d.setPart p x).hbm = d.hbm := rfl
@[simp] theorem Dev.setPart_tempo (d : Dev) (p : Nat) (x : Part) : (d.setPart p x).tempo = d.tempo := rfl
@[simp] theorem Dev.setPart_host (d : Dev) (p : Nat) (x : Part) : (d.setPart p x).host = d.host := rfl
@[simp] theorem Dev.setPart_reel (d : Dev) (p : Nat) (x : Part) : (d.setPart p x).reel = d.reel := rfl
@[simp] theorem Dev.setPart_floor (d : Dev) (p : Nat) (x : Part) : (d.setPart p x).floor = d.floor := rfl
@[simp] theorem Dev.setPart_minuet (d : Dev) (p : Nat) (x : Part) : (d.setPart p x).minuet = d.minuet := rfl
@[simp] theorem Dev.setPart_out (d : Dev) (p : Nat) (x : Part) : (d.setPart p x).out = d.out := rfl
@[simp] theorem Dev.setPart_variantB (d : Dev) (p : Nat) (x : Part) : (d.setPart p x).variantB = d.variantB := rfl
@[simp] theorem Dev.setPart_fresh (d : Dev) (p : Nat) (x : Part) : (d.setPart p x).fresh = d.fresh := rfl
@[simp] theorem Dev.setPart_clock (d : Dev) (p : Nat) (x : Part) : (d.setPart p x).clock = d.clock := rfl
@[simp] theorem Dev.setPart_halted (d : Dev) (p : Nat) (x : Part) : (d.setPart p x).halted = d.halted := rfl

@[simp] theorem Dev.setQueue_mem (d : Dev) (q : Nat) (x : Queue) : (d.setQueue q x).mem = d.mem := rfl
@[simp] theorem Dev.setQueue_poison (d : Dev) (q : Nat) (x : Queue) : (d.setQueue q x).poison = d.poison := rfl
@[simp] theorem Dev.setQueue_regs (d : Dev) (q : Nat) (x : Queue) : (d.setQueue q x).regs = d.regs := rfl
@[simp] theorem Dev.setQueue_written (d : Dev) (q : Nat) (x : Queue) : (d.setQueue q x).written = d.written := rfl
@[simp] theorem Dev.setQueue_cores (d : Dev) (q : Nat) (x : Queue) : (d.setQueue q x).cores = d.cores := rfl
@[simp] theorem Dev.setQueue_rcache (d : Dev) (q : Nat) (x : Queue) : (d.setQueue q x).rcache = d.rcache := rfl
@[simp] theorem Dev.setQueue_walks (d : Dev) (q : Nat) (x : Queue) : (d.setQueue q x).walks = d.walks := rfl
@[simp] theorem Dev.setQueue_parts (d : Dev) (q : Nat) (x : Queue) : (d.setQueue q x).parts = d.parts := rfl
@[simp] theorem Dev.setQueue_coh (d : Dev) (q : Nat) (x : Queue) : (d.setQueue q x).coh = d.coh := rfl
@[simp] theorem Dev.setQueue_hbm (d : Dev) (q : Nat) (x : Queue) : (d.setQueue q x).hbm = d.hbm := rfl
@[simp] theorem Dev.setQueue_tempo (d : Dev) (q : Nat) (x : Queue) : (d.setQueue q x).tempo = d.tempo := rfl
@[simp] theorem Dev.setQueue_host (d : Dev) (q : Nat) (x : Queue) : (d.setQueue q x).host = d.host := rfl
@[simp] theorem Dev.setQueue_reel (d : Dev) (q : Nat) (x : Queue) : (d.setQueue q x).reel = d.reel := rfl
@[simp] theorem Dev.setQueue_floor (d : Dev) (q : Nat) (x : Queue) : (d.setQueue q x).floor = d.floor := rfl
@[simp] theorem Dev.setQueue_minuet (d : Dev) (q : Nat) (x : Queue) : (d.setQueue q x).minuet = d.minuet := rfl
@[simp] theorem Dev.setQueue_out (d : Dev) (q : Nat) (x : Queue) : (d.setQueue q x).out = d.out := rfl
@[simp] theorem Dev.setQueue_variantB (d : Dev) (q : Nat) (x : Queue) : (d.setQueue q x).variantB = d.variantB := rfl
@[simp] theorem Dev.setQueue_fresh (d : Dev) (q : Nat) (x : Queue) : (d.setQueue q x).fresh = d.fresh := rfl
@[simp] theorem Dev.setQueue_clock (d : Dev) (q : Nat) (x : Queue) : (d.setQueue q x).clock = d.clock := rfl
@[simp] theorem Dev.setQueue_halted (d : Dev) (q : Nat) (x : Queue) : (d.setQueue q x).halted = d.halted := rfl

@[simp] theorem Dev.setMinuet_mem (d : Dev) (x : Minuet) : (d.setMinuet x).mem = d.mem := rfl
@[simp] theorem Dev.setMinuet_poison (d : Dev) (x : Minuet) : (d.setMinuet x).poison = d.poison := rfl
@[simp] theorem Dev.setMinuet_regs (d : Dev) (x : Minuet) : (d.setMinuet x).regs = d.regs := rfl
@[simp] theorem Dev.setMinuet_written (d : Dev) (x : Minuet) : (d.setMinuet x).written = d.written := rfl
@[simp] theorem Dev.setMinuet_cores (d : Dev) (x : Minuet) : (d.setMinuet x).cores = d.cores := rfl
@[simp] theorem Dev.setMinuet_rcache (d : Dev) (x : Minuet) : (d.setMinuet x).rcache = d.rcache := rfl
@[simp] theorem Dev.setMinuet_walks (d : Dev) (x : Minuet) : (d.setMinuet x).walks = d.walks := rfl
@[simp] theorem Dev.setMinuet_queues (d : Dev) (x : Minuet) : (d.setMinuet x).queues = d.queues := rfl
@[simp] theorem Dev.setMinuet_parts (d : Dev) (x : Minuet) : (d.setMinuet x).parts = d.parts := rfl
@[simp] theorem Dev.setMinuet_coh (d : Dev) (x : Minuet) : (d.setMinuet x).coh = d.coh := rfl
@[simp] theorem Dev.setMinuet_hbm (d : Dev) (x : Minuet) : (d.setMinuet x).hbm = d.hbm := rfl
@[simp] theorem Dev.setMinuet_tempo (d : Dev) (x : Minuet) : (d.setMinuet x).tempo = d.tempo := rfl
@[simp] theorem Dev.setMinuet_host (d : Dev) (x : Minuet) : (d.setMinuet x).host = d.host := rfl
@[simp] theorem Dev.setMinuet_reel (d : Dev) (x : Minuet) : (d.setMinuet x).reel = d.reel := rfl
@[simp] theorem Dev.setMinuet_floor (d : Dev) (x : Minuet) : (d.setMinuet x).floor = d.floor := rfl
@[simp] theorem Dev.setMinuet_out (d : Dev) (x : Minuet) : (d.setMinuet x).out = d.out := rfl
@[simp] theorem Dev.setMinuet_variantB (d : Dev) (x : Minuet) : (d.setMinuet x).variantB = d.variantB := rfl
@[simp] theorem Dev.setMinuet_fresh (d : Dev) (x : Minuet) : (d.setMinuet x).fresh = d.fresh := rfl
@[simp] theorem Dev.setMinuet_clock (d : Dev) (x : Minuet) : (d.setMinuet x).clock = d.clock := rfl
@[simp] theorem Dev.setMinuet_halted (d : Dev) (x : Minuet) : (d.setMinuet x).halted = d.halted := rfl

@[simp] theorem Dev.setHost_mem (d : Dev) (x : HostCx) : (d.setHost x).mem = d.mem := rfl
@[simp] theorem Dev.setHost_poison (d : Dev) (x : HostCx) : (d.setHost x).poison = d.poison := rfl
@[simp] theorem Dev.setHost_regs (d : Dev) (x : HostCx) : (d.setHost x).regs = d.regs := rfl
@[simp] theorem Dev.setHost_written (d : Dev) (x : HostCx) : (d.setHost x).written = d.written := rfl
@[simp] theorem Dev.setHost_cores (d : Dev) (x : HostCx) : (d.setHost x).cores = d.cores := rfl
@[simp] theorem Dev.setHost_rcache (d : Dev) (x : HostCx) : (d.setHost x).rcache = d.rcache := rfl
@[simp] theorem Dev.setHost_walks (d : Dev) (x : HostCx) : (d.setHost x).walks = d.walks := rfl
@[simp] theorem Dev.setHost_queues (d : Dev) (x : HostCx) : (d.setHost x).queues = d.queues := rfl
@[simp] theorem Dev.setHost_parts (d : Dev) (x : HostCx) : (d.setHost x).parts = d.parts := rfl
@[simp] theorem Dev.setHost_coh (d : Dev) (x : HostCx) : (d.setHost x).coh = d.coh := rfl
@[simp] theorem Dev.setHost_hbm (d : Dev) (x : HostCx) : (d.setHost x).hbm = d.hbm := rfl
@[simp] theorem Dev.setHost_tempo (d : Dev) (x : HostCx) : (d.setHost x).tempo = d.tempo := rfl
@[simp] theorem Dev.setHost_reel (d : Dev) (x : HostCx) : (d.setHost x).reel = d.reel := rfl
@[simp] theorem Dev.setHost_floor (d : Dev) (x : HostCx) : (d.setHost x).floor = d.floor := rfl
@[simp] theorem Dev.setHost_minuet (d : Dev) (x : HostCx) : (d.setHost x).minuet = d.minuet := rfl
@[simp] theorem Dev.setHost_out (d : Dev) (x : HostCx) : (d.setHost x).out = d.out := rfl
@[simp] theorem Dev.setHost_variantB (d : Dev) (x : HostCx) : (d.setHost x).variantB = d.variantB := rfl
@[simp] theorem Dev.setHost_fresh (d : Dev) (x : HostCx) : (d.setHost x).fresh = d.fresh := rfl
@[simp] theorem Dev.setHost_clock (d : Dev) (x : HostCx) : (d.setHost x).clock = d.clock := rfl
@[simp] theorem Dev.setHost_halted (d : Dev) (x : HostCx) : (d.setHost x).halted = d.halted := rfl

@[simp] theorem Dev.setReel_mem (d : Dev) (x : Reel) : (d.setReel x).mem = d.mem := rfl
@[simp] theorem Dev.setReel_poison (d : Dev) (x : Reel) : (d.setReel x).poison = d.poison := rfl
@[simp] theorem Dev.setReel_regs (d : Dev) (x : Reel) : (d.setReel x).regs = d.regs := rfl
@[simp] theorem Dev.setReel_written (d : Dev) (x : Reel) : (d.setReel x).written = d.written := rfl
@[simp] theorem Dev.setReel_cores (d : Dev) (x : Reel) : (d.setReel x).cores = d.cores := rfl
@[simp] theorem Dev.setReel_rcache (d : Dev) (x : Reel) : (d.setReel x).rcache = d.rcache := rfl
@[simp] theorem Dev.setReel_walks (d : Dev) (x : Reel) : (d.setReel x).walks = d.walks := rfl
@[simp] theorem Dev.setReel_queues (d : Dev) (x : Reel) : (d.setReel x).queues = d.queues := rfl
@[simp] theorem Dev.setReel_parts (d : Dev) (x : Reel) : (d.setReel x).parts = d.parts := rfl
@[simp] theorem Dev.setReel_coh (d : Dev) (x : Reel) : (d.setReel x).coh = d.coh := rfl
@[simp] theorem Dev.setReel_hbm (d : Dev) (x : Reel) : (d.setReel x).hbm = d.hbm := rfl
@[simp] theorem Dev.setReel_tempo (d : Dev) (x : Reel) : (d.setReel x).tempo = d.tempo := rfl
@[simp] theorem Dev.setReel_host (d : Dev) (x : Reel) : (d.setReel x).host = d.host := rfl
@[simp] theorem Dev.setReel_floor (d : Dev) (x : Reel) : (d.setReel x).floor = d.floor := rfl
@[simp] theorem Dev.setReel_minuet (d : Dev) (x : Reel) : (d.setReel x).minuet = d.minuet := rfl
@[simp] theorem Dev.setReel_out (d : Dev) (x : Reel) : (d.setReel x).out = d.out := rfl
@[simp] theorem Dev.setReel_variantB (d : Dev) (x : Reel) : (d.setReel x).variantB = d.variantB := rfl
@[simp] theorem Dev.setReel_fresh (d : Dev) (x : Reel) : (d.setReel x).fresh = d.fresh := rfl
@[simp] theorem Dev.setReel_clock (d : Dev) (x : Reel) : (d.setReel x).clock = d.clock := rfl
@[simp] theorem Dev.setReel_halted (d : Dev) (x : Reel) : (d.setReel x).halted = d.halted := rfl

@[simp] theorem Dev.setFloor_mem (d : Dev) (x : FloorHw) : (d.setFloor x).mem = d.mem := rfl
@[simp] theorem Dev.setFloor_poison (d : Dev) (x : FloorHw) : (d.setFloor x).poison = d.poison := rfl
@[simp] theorem Dev.setFloor_regs (d : Dev) (x : FloorHw) : (d.setFloor x).regs = d.regs := rfl
@[simp] theorem Dev.setFloor_written (d : Dev) (x : FloorHw) : (d.setFloor x).written = d.written := rfl
@[simp] theorem Dev.setFloor_cores (d : Dev) (x : FloorHw) : (d.setFloor x).cores = d.cores := rfl
@[simp] theorem Dev.setFloor_rcache (d : Dev) (x : FloorHw) : (d.setFloor x).rcache = d.rcache := rfl
@[simp] theorem Dev.setFloor_walks (d : Dev) (x : FloorHw) : (d.setFloor x).walks = d.walks := rfl
@[simp] theorem Dev.setFloor_queues (d : Dev) (x : FloorHw) : (d.setFloor x).queues = d.queues := rfl
@[simp] theorem Dev.setFloor_parts (d : Dev) (x : FloorHw) : (d.setFloor x).parts = d.parts := rfl
@[simp] theorem Dev.setFloor_coh (d : Dev) (x : FloorHw) : (d.setFloor x).coh = d.coh := rfl
@[simp] theorem Dev.setFloor_hbm (d : Dev) (x : FloorHw) : (d.setFloor x).hbm = d.hbm := rfl
@[simp] theorem Dev.setFloor_tempo (d : Dev) (x : FloorHw) : (d.setFloor x).tempo = d.tempo := rfl
@[simp] theorem Dev.setFloor_host (d : Dev) (x : FloorHw) : (d.setFloor x).host = d.host := rfl
@[simp] theorem Dev.setFloor_reel (d : Dev) (x : FloorHw) : (d.setFloor x).reel = d.reel := rfl
@[simp] theorem Dev.setFloor_minuet (d : Dev) (x : FloorHw) : (d.setFloor x).minuet = d.minuet := rfl
@[simp] theorem Dev.setFloor_out (d : Dev) (x : FloorHw) : (d.setFloor x).out = d.out := rfl
@[simp] theorem Dev.setFloor_variantB (d : Dev) (x : FloorHw) : (d.setFloor x).variantB = d.variantB := rfl
@[simp] theorem Dev.setFloor_fresh (d : Dev) (x : FloorHw) : (d.setFloor x).fresh = d.fresh := rfl
@[simp] theorem Dev.setFloor_clock (d : Dev) (x : FloorHw) : (d.setFloor x).clock = d.clock := rfl
@[simp] theorem Dev.setFloor_halted (d : Dev) (x : FloorHw) : (d.setFloor x).halted = d.halted := rfl

@[simp] theorem Dev.setTempo_mem (d : Dev) (x : Tempo) : (d.setTempo x).mem = d.mem := rfl
@[simp] theorem Dev.setTempo_poison (d : Dev) (x : Tempo) : (d.setTempo x).poison = d.poison := rfl
@[simp] theorem Dev.setTempo_regs (d : Dev) (x : Tempo) : (d.setTempo x).regs = d.regs := rfl
@[simp] theorem Dev.setTempo_written (d : Dev) (x : Tempo) : (d.setTempo x).written = d.written := rfl
@[simp] theorem Dev.setTempo_cores (d : Dev) (x : Tempo) : (d.setTempo x).cores = d.cores := rfl
@[simp] theorem Dev.setTempo_rcache (d : Dev) (x : Tempo) : (d.setTempo x).rcache = d.rcache := rfl
@[simp] theorem Dev.setTempo_walks (d : Dev) (x : Tempo) : (d.setTempo x).walks = d.walks := rfl
@[simp] theorem Dev.setTempo_queues (d : Dev) (x : Tempo) : (d.setTempo x).queues = d.queues := rfl
@[simp] theorem Dev.setTempo_parts (d : Dev) (x : Tempo) : (d.setTempo x).parts = d.parts := rfl
@[simp] theorem Dev.setTempo_coh (d : Dev) (x : Tempo) : (d.setTempo x).coh = d.coh := rfl
@[simp] theorem Dev.setTempo_hbm (d : Dev) (x : Tempo) : (d.setTempo x).hbm = d.hbm := rfl
@[simp] theorem Dev.setTempo_host (d : Dev) (x : Tempo) : (d.setTempo x).host = d.host := rfl
@[simp] theorem Dev.setTempo_reel (d : Dev) (x : Tempo) : (d.setTempo x).reel = d.reel := rfl
@[simp] theorem Dev.setTempo_floor (d : Dev) (x : Tempo) : (d.setTempo x).floor = d.floor := rfl
@[simp] theorem Dev.setTempo_minuet (d : Dev) (x : Tempo) : (d.setTempo x).minuet = d.minuet := rfl
@[simp] theorem Dev.setTempo_out (d : Dev) (x : Tempo) : (d.setTempo x).out = d.out := rfl
@[simp] theorem Dev.setTempo_variantB (d : Dev) (x : Tempo) : (d.setTempo x).variantB = d.variantB := rfl
@[simp] theorem Dev.setTempo_fresh (d : Dev) (x : Tempo) : (d.setTempo x).fresh = d.fresh := rfl
@[simp] theorem Dev.setTempo_clock (d : Dev) (x : Tempo) : (d.setTempo x).clock = d.clock := rfl
@[simp] theorem Dev.setTempo_halted (d : Dev) (x : Tempo) : (d.setTempo x).halted = d.halted := rfl

@[simp] theorem Dev.setCoh_mem (d : Dev) (x : Coh) : (d.setCoh x).mem = d.mem := rfl
@[simp] theorem Dev.setCoh_poison (d : Dev) (x : Coh) : (d.setCoh x).poison = d.poison := rfl
@[simp] theorem Dev.setCoh_regs (d : Dev) (x : Coh) : (d.setCoh x).regs = d.regs := rfl
@[simp] theorem Dev.setCoh_written (d : Dev) (x : Coh) : (d.setCoh x).written = d.written := rfl
@[simp] theorem Dev.setCoh_cores (d : Dev) (x : Coh) : (d.setCoh x).cores = d.cores := rfl
@[simp] theorem Dev.setCoh_rcache (d : Dev) (x : Coh) : (d.setCoh x).rcache = d.rcache := rfl
@[simp] theorem Dev.setCoh_walks (d : Dev) (x : Coh) : (d.setCoh x).walks = d.walks := rfl
@[simp] theorem Dev.setCoh_queues (d : Dev) (x : Coh) : (d.setCoh x).queues = d.queues := rfl
@[simp] theorem Dev.setCoh_parts (d : Dev) (x : Coh) : (d.setCoh x).parts = d.parts := rfl
@[simp] theorem Dev.setCoh_hbm (d : Dev) (x : Coh) : (d.setCoh x).hbm = d.hbm := rfl
@[simp] theorem Dev.setCoh_tempo (d : Dev) (x : Coh) : (d.setCoh x).tempo = d.tempo := rfl
@[simp] theorem Dev.setCoh_host (d : Dev) (x : Coh) : (d.setCoh x).host = d.host := rfl
@[simp] theorem Dev.setCoh_reel (d : Dev) (x : Coh) : (d.setCoh x).reel = d.reel := rfl
@[simp] theorem Dev.setCoh_floor (d : Dev) (x : Coh) : (d.setCoh x).floor = d.floor := rfl
@[simp] theorem Dev.setCoh_minuet (d : Dev) (x : Coh) : (d.setCoh x).minuet = d.minuet := rfl
@[simp] theorem Dev.setCoh_out (d : Dev) (x : Coh) : (d.setCoh x).out = d.out := rfl
@[simp] theorem Dev.setCoh_variantB (d : Dev) (x : Coh) : (d.setCoh x).variantB = d.variantB := rfl
@[simp] theorem Dev.setCoh_fresh (d : Dev) (x : Coh) : (d.setCoh x).fresh = d.fresh := rfl
@[simp] theorem Dev.setCoh_clock (d : Dev) (x : Coh) : (d.setCoh x).clock = d.clock := rfl
@[simp] theorem Dev.setCoh_halted (d : Dev) (x : Coh) : (d.setCoh x).halted = d.halted := rfl

@[simp] theorem Dev.setHbm_mem (d : Dev) (x : Hbm) : (d.setHbm x).mem = d.mem := rfl
@[simp] theorem Dev.setHbm_poison (d : Dev) (x : Hbm) : (d.setHbm x).poison = d.poison := rfl
@[simp] theorem Dev.setHbm_regs (d : Dev) (x : Hbm) : (d.setHbm x).regs = d.regs := rfl
@[simp] theorem Dev.setHbm_written (d : Dev) (x : Hbm) : (d.setHbm x).written = d.written := rfl
@[simp] theorem Dev.setHbm_cores (d : Dev) (x : Hbm) : (d.setHbm x).cores = d.cores := rfl
@[simp] theorem Dev.setHbm_rcache (d : Dev) (x : Hbm) : (d.setHbm x).rcache = d.rcache := rfl
@[simp] theorem Dev.setHbm_walks (d : Dev) (x : Hbm) : (d.setHbm x).walks = d.walks := rfl
@[simp] theorem Dev.setHbm_queues (d : Dev) (x : Hbm) : (d.setHbm x).queues = d.queues := rfl
@[simp] theorem Dev.setHbm_parts (d : Dev) (x : Hbm) : (d.setHbm x).parts = d.parts := rfl
@[simp] theorem Dev.setHbm_coh (d : Dev) (x : Hbm) : (d.setHbm x).coh = d.coh := rfl
@[simp] theorem Dev.setHbm_tempo (d : Dev) (x : Hbm) : (d.setHbm x).tempo = d.tempo := rfl
@[simp] theorem Dev.setHbm_host (d : Dev) (x : Hbm) : (d.setHbm x).host = d.host := rfl
@[simp] theorem Dev.setHbm_reel (d : Dev) (x : Hbm) : (d.setHbm x).reel = d.reel := rfl
@[simp] theorem Dev.setHbm_floor (d : Dev) (x : Hbm) : (d.setHbm x).floor = d.floor := rfl
@[simp] theorem Dev.setHbm_minuet (d : Dev) (x : Hbm) : (d.setHbm x).minuet = d.minuet := rfl
@[simp] theorem Dev.setHbm_out (d : Dev) (x : Hbm) : (d.setHbm x).out = d.out := rfl
@[simp] theorem Dev.setHbm_variantB (d : Dev) (x : Hbm) : (d.setHbm x).variantB = d.variantB := rfl
@[simp] theorem Dev.setHbm_fresh (d : Dev) (x : Hbm) : (d.setHbm x).fresh = d.fresh := rfl
@[simp] theorem Dev.setHbm_clock (d : Dev) (x : Hbm) : (d.setHbm x).clock = d.clock := rfl
@[simp] theorem Dev.setHbm_halted (d : Dev) (x : Hbm) : (d.setHbm x).halted = d.halted := rfl

@[simp] theorem Dev.setWord_mem (d : Dev) (r : Reg) (a b v : Nat) : (d.setWord r a b v).mem = d.mem := by unfold Dev.setWord; rfl
@[simp] theorem Dev.setWord_poison (d : Dev) (r : Reg) (a b v : Nat) : (d.setWord r a b v).poison = d.poison := by unfold Dev.setWord; rfl
@[simp] theorem Dev.setWord_written (d : Dev) (r : Reg) (a b v : Nat) : (d.setWord r a b v).written = d.written := by unfold Dev.setWord; rfl
@[simp] theorem Dev.setWord_cores (d : Dev) (r : Reg) (a b v : Nat) : (d.setWord r a b v).cores = d.cores := by unfold Dev.setWord; rfl
@[simp] theorem Dev.setWord_rcache (d : Dev) (r : Reg) (a b v : Nat) : (d.setWord r a b v).rcache = d.rcache := by unfold Dev.setWord; rfl
@[simp] theorem Dev.setWord_walks (d : Dev) (r : Reg) (a b v : Nat) : (d.setWord r a b v).walks = d.walks := by unfold Dev.setWord; rfl
@[simp] theorem Dev.setWord_queues (d : Dev) (r : Reg) (a b v : Nat) : (d.setWord r a b v).queues = d.queues := by unfold Dev.setWord; rfl
@[simp] theorem Dev.setWord_parts (d : Dev) (r : Reg) (a b v : Nat) : (d.setWord r a b v).parts = d.parts := by unfold Dev.setWord; rfl
@[simp] theorem Dev.setWord_coh (d : Dev) (r : Reg) (a b v : Nat) : (d.setWord r a b v).coh = d.coh := by unfold Dev.setWord; rfl
@[simp] theorem Dev.setWord_hbm (d : Dev) (r : Reg) (a b v : Nat) : (d.setWord r a b v).hbm = d.hbm := by unfold Dev.setWord; rfl
@[simp] theorem Dev.setWord_tempo (d : Dev) (r : Reg) (a b v : Nat) : (d.setWord r a b v).tempo = d.tempo := by unfold Dev.setWord; rfl
@[simp] theorem Dev.setWord_host (d : Dev) (r : Reg) (a b v : Nat) : (d.setWord r a b v).host = d.host := by unfold Dev.setWord; rfl
@[simp] theorem Dev.setWord_reel (d : Dev) (r : Reg) (a b v : Nat) : (d.setWord r a b v).reel = d.reel := by unfold Dev.setWord; rfl
@[simp] theorem Dev.setWord_floor (d : Dev) (r : Reg) (a b v : Nat) : (d.setWord r a b v).floor = d.floor := by unfold Dev.setWord; rfl
@[simp] theorem Dev.setWord_minuet (d : Dev) (r : Reg) (a b v : Nat) : (d.setWord r a b v).minuet = d.minuet := by unfold Dev.setWord; rfl
@[simp] theorem Dev.setWord_out (d : Dev) (r : Reg) (a b v : Nat) : (d.setWord r a b v).out = d.out := by unfold Dev.setWord; rfl
@[simp] theorem Dev.setWord_variantB (d : Dev) (r : Reg) (a b v : Nat) : (d.setWord r a b v).variantB = d.variantB := by unfold Dev.setWord; rfl
@[simp] theorem Dev.setWord_fresh (d : Dev) (r : Reg) (a b v : Nat) : (d.setWord r a b v).fresh = d.fresh := by unfold Dev.setWord; rfl
@[simp] theorem Dev.setWord_clock (d : Dev) (r : Reg) (a b v : Nat) : (d.setWord r a b v).clock = d.clock := by unfold Dev.setWord; rfl
@[simp] theorem Dev.setWord_halted (d : Dev) (r : Reg) (a b v : Nat) : (d.setWord r a b v).halted = d.halted := by unfold Dev.setWord; rfl

@[simp] theorem Dev.setMemLine_poison (d : Dev) (n : Nat) (x : Line) : (d.setMemLine n x).poison = d.poison := by unfold Dev.setMemLine; rfl
@[simp] theorem Dev.setMemLine_regs (d : Dev) (n : Nat) (x : Line) : (d.setMemLine n x).regs = d.regs := by unfold Dev.setMemLine; rfl
@[simp] theorem Dev.setMemLine_written (d : Dev) (n : Nat) (x : Line) : (d.setMemLine n x).written = d.written := by unfold Dev.setMemLine; rfl
@[simp] theorem Dev.setMemLine_cores (d : Dev) (n : Nat) (x : Line) : (d.setMemLine n x).cores = d.cores := by unfold Dev.setMemLine; rfl
@[simp] theorem Dev.setMemLine_rcache (d : Dev) (n : Nat) (x : Line) : (d.setMemLine n x).rcache = d.rcache := by unfold Dev.setMemLine; rfl
@[simp] theorem Dev.setMemLine_walks (d : Dev) (n : Nat) (x : Line) : (d.setMemLine n x).walks = d.walks := by unfold Dev.setMemLine; rfl
@[simp] theorem Dev.setMemLine_queues (d : Dev) (n : Nat) (x : Line) : (d.setMemLine n x).queues = d.queues := by unfold Dev.setMemLine; rfl
@[simp] theorem Dev.setMemLine_parts (d : Dev) (n : Nat) (x : Line) : (d.setMemLine n x).parts = d.parts := by unfold Dev.setMemLine; rfl
@[simp] theorem Dev.setMemLine_coh (d : Dev) (n : Nat) (x : Line) : (d.setMemLine n x).coh = d.coh := by unfold Dev.setMemLine; rfl
@[simp] theorem Dev.setMemLine_hbm (d : Dev) (n : Nat) (x : Line) : (d.setMemLine n x).hbm = d.hbm := by unfold Dev.setMemLine; rfl
@[simp] theorem Dev.setMemLine_tempo (d : Dev) (n : Nat) (x : Line) : (d.setMemLine n x).tempo = d.tempo := by unfold Dev.setMemLine; rfl
@[simp] theorem Dev.setMemLine_host (d : Dev) (n : Nat) (x : Line) : (d.setMemLine n x).host = d.host := by unfold Dev.setMemLine; rfl
@[simp] theorem Dev.setMemLine_reel (d : Dev) (n : Nat) (x : Line) : (d.setMemLine n x).reel = d.reel := by unfold Dev.setMemLine; rfl
@[simp] theorem Dev.setMemLine_floor (d : Dev) (n : Nat) (x : Line) : (d.setMemLine n x).floor = d.floor := by unfold Dev.setMemLine; rfl
@[simp] theorem Dev.setMemLine_minuet (d : Dev) (n : Nat) (x : Line) : (d.setMemLine n x).minuet = d.minuet := by unfold Dev.setMemLine; rfl
@[simp] theorem Dev.setMemLine_out (d : Dev) (n : Nat) (x : Line) : (d.setMemLine n x).out = d.out := by unfold Dev.setMemLine; rfl
@[simp] theorem Dev.setMemLine_variantB (d : Dev) (n : Nat) (x : Line) : (d.setMemLine n x).variantB = d.variantB := by unfold Dev.setMemLine; rfl
@[simp] theorem Dev.setMemLine_fresh (d : Dev) (n : Nat) (x : Line) : (d.setMemLine n x).fresh = d.fresh := by unfold Dev.setMemLine; rfl
@[simp] theorem Dev.setMemLine_clock (d : Dev) (n : Nat) (x : Line) : (d.setMemLine n x).clock = d.clock := by unfold Dev.setMemLine; rfl
@[simp] theorem Dev.setMemLine_halted (d : Dev) (n : Nat) (x : Line) : (d.setMemLine n x).halted = d.halted := by unfold Dev.setMemLine; rfl

@[simp] theorem Dev.emit_mem (d : Dev) (e : Emission) : (d.emit e).mem = d.mem := rfl
@[simp] theorem Dev.emit_poison (d : Dev) (e : Emission) : (d.emit e).poison = d.poison := rfl
@[simp] theorem Dev.emit_regs (d : Dev) (e : Emission) : (d.emit e).regs = d.regs := rfl
@[simp] theorem Dev.emit_written (d : Dev) (e : Emission) : (d.emit e).written = d.written := rfl
@[simp] theorem Dev.emit_cores (d : Dev) (e : Emission) : (d.emit e).cores = d.cores := rfl
@[simp] theorem Dev.emit_rcache (d : Dev) (e : Emission) : (d.emit e).rcache = d.rcache := rfl
@[simp] theorem Dev.emit_walks (d : Dev) (e : Emission) : (d.emit e).walks = d.walks := rfl
@[simp] theorem Dev.emit_queues (d : Dev) (e : Emission) : (d.emit e).queues = d.queues := rfl
@[simp] theorem Dev.emit_parts (d : Dev) (e : Emission) : (d.emit e).parts = d.parts := rfl
@[simp] theorem Dev.emit_coh (d : Dev) (e : Emission) : (d.emit e).coh = d.coh := rfl
@[simp] theorem Dev.emit_hbm (d : Dev) (e : Emission) : (d.emit e).hbm = d.hbm := rfl
@[simp] theorem Dev.emit_tempo (d : Dev) (e : Emission) : (d.emit e).tempo = d.tempo := rfl
@[simp] theorem Dev.emit_host (d : Dev) (e : Emission) : (d.emit e).host = d.host := rfl
@[simp] theorem Dev.emit_reel (d : Dev) (e : Emission) : (d.emit e).reel = d.reel := rfl
@[simp] theorem Dev.emit_floor (d : Dev) (e : Emission) : (d.emit e).floor = d.floor := rfl
@[simp] theorem Dev.emit_minuet (d : Dev) (e : Emission) : (d.emit e).minuet = d.minuet := rfl
@[simp] theorem Dev.emit_variantB (d : Dev) (e : Emission) : (d.emit e).variantB = d.variantB := rfl
@[simp] theorem Dev.emit_fresh (d : Dev) (e : Emission) : (d.emit e).fresh = d.fresh := rfl
@[simp] theorem Dev.emit_clock (d : Dev) (e : Emission) : (d.emit e).clock = d.clock := rfl
@[simp] theorem Dev.emit_halted (d : Dev) (e : Emission) : (d.emit e).halted = d.halted := rfl

@[simp] theorem Dev.tick_mem (d : Dev) : (d.tick).mem = d.mem := rfl
@[simp] theorem Dev.tick_poison (d : Dev) : (d.tick).poison = d.poison := rfl
@[simp] theorem Dev.tick_regs (d : Dev) : (d.tick).regs = d.regs := rfl
@[simp] theorem Dev.tick_written (d : Dev) : (d.tick).written = d.written := rfl
@[simp] theorem Dev.tick_cores (d : Dev) : (d.tick).cores = d.cores := rfl
@[simp] theorem Dev.tick_rcache (d : Dev) : (d.tick).rcache = d.rcache := rfl
@[simp] theorem Dev.tick_walks (d : Dev) : (d.tick).walks = d.walks := rfl
@[simp] theorem Dev.tick_queues (d : Dev) : (d.tick).queues = d.queues := rfl
@[simp] theorem Dev.tick_parts (d : Dev) : (d.tick).parts = d.parts := rfl
@[simp] theorem Dev.tick_coh (d : Dev) : (d.tick).coh = d.coh := rfl
@[simp] theorem Dev.tick_hbm (d : Dev) : (d.tick).hbm = d.hbm := rfl
@[simp] theorem Dev.tick_tempo (d : Dev) : (d.tick).tempo = d.tempo := rfl
@[simp] theorem Dev.tick_host (d : Dev) : (d.tick).host = d.host := rfl
@[simp] theorem Dev.tick_reel (d : Dev) : (d.tick).reel = d.reel := rfl
@[simp] theorem Dev.tick_floor (d : Dev) : (d.tick).floor = d.floor := rfl
@[simp] theorem Dev.tick_minuet (d : Dev) : (d.tick).minuet = d.minuet := rfl
@[simp] theorem Dev.tick_out (d : Dev) : (d.tick).out = d.out := rfl
@[simp] theorem Dev.tick_variantB (d : Dev) : (d.tick).variantB = d.variantB := rfl
@[simp] theorem Dev.tick_fresh (d : Dev) : (d.tick).fresh = d.fresh := rfl
@[simp] theorem Dev.tick_halted (d : Dev) : (d.tick).halted = d.halted := rfl

@[simp] theorem Dev.setMinuet_own (d : Dev) (x : Minuet) : (d.setMinuet x).minuet = x := rfl
@[simp] theorem Dev.setHost_own (d : Dev) (x : HostCx) : (d.setHost x).host = x := rfl
@[simp] theorem Dev.setReel_own (d : Dev) (x : Reel) : (d.setReel x).reel = x := rfl
@[simp] theorem Dev.setFloor_own (d : Dev) (x : FloorHw) : (d.setFloor x).floor = x := rfl
@[simp] theorem Dev.setTempo_own (d : Dev) (x : Tempo) : (d.setTempo x).tempo = x := rfl
@[simp] theorem Dev.setCoh_own (d : Dev) (x : Coh) : (d.setCoh x).coh = x := rfl
@[simp] theorem Dev.setHbm_own (d : Dev) (x : Hbm) : (d.setHbm x).hbm = x := rfl

@[simp] theorem Dev.core_setCore_same (d : Dev) (k : Nat) (x : Core) : (d.setCore k x).core k = x := by
  simp [Dev.core, Dev.setCore]

theorem Dev.core_setCore_other (d : Dev) {j k : Nat} (h : j ≠ k) (x : Core) : (d.setCore k x).core j = d.core j := by
  simp [Dev.core, Dev.setCore, smapGet_put_other _ h]

@[simp] theorem Dev.part_setPart_same (d : Dev) (p : Nat) (x : Part) : (d.setPart p x).part p = x := by
  simp [Dev.part, Dev.setPart]

theorem Dev.part_setPart_other (d : Dev) {i p : Nat} (h : i ≠ p) (x : Part) : (d.setPart p x).part i = d.part i := by
  simp [Dev.part, Dev.setPart, smapGet_put_other _ h]

@[simp] theorem Dev.queue_setQueue_same (d : Dev) (q : Nat) (x : Queue) : (d.setQueue q x).queue q = x := by
  simp [Dev.queue, Dev.setQueue]

theorem Dev.queue_setQueue_other (d : Dev) {i q : Nat} (h : i ≠ q) (x : Queue) : (d.setQueue q x).queue i = d.queue i := by
  simp [Dev.queue, Dev.setQueue, smapGet_put_other _ h]

/-! ### Registers and their fields -/

@[simp] theorem Dev.word_setWord_same (d : Dev) (r : Reg) (a b v : Nat) : (d.setWord r a b v).word r a b = v % 2 ^ 64 := by
  simp [Dev.word, Dev.setWord]

theorem Reg.ctorIdx_lt (r : Reg) : r.ctorIdx < 512 := by cases r <;> decide

theorem Reg.ofNat_ctorIdx' (r : Reg) : Reg.ofNat r.ctorIdx = r := by cases r <;> rfl

/-- A key names one register. -/
theorem regKey_inj {r r' : Reg} {a b a' b' : Nat} : regKey r a b = regKey r' a' b' ↔ r = r' ∧ a = a' ∧ b = b' := by
  refine ⟨fun h => ?_, fun ⟨hr, ha, hb⟩ => by rw [hr, ha, hb]⟩
  have hi := r.ctorIdx_lt
  have hi' := r'.ctorIdx_lt
  simp only [regKey] at h
  have hr : r.ctorIdx = r'.ctorIdx := by omega
  have hk : (a + b) * (a + b) + a = (a' + b') * (a' + b') + a' := by omega
  have hs : a + b = a' + b' := by
    rcases Nat.lt_trichotomy (a + b) (a' + b') with hl | he | hl
    · have := Nat.mul_le_mul hl hl
      simp only [Nat.succ_eq_add_one, Nat.add_mul, Nat.mul_add] at this hk
      omega
    · exact he
    · have := Nat.mul_le_mul hl hl
      simp only [Nat.succ_eq_add_one, Nat.add_mul, Nat.mul_add] at this hk
      omega
  rw [hs] at hk
  exact ⟨by rw [← Reg.ofNat_ctorIdx' r, hr, Reg.ofNat_ctorIdx'], by omega, by omega⟩

theorem Dev.word_setWord_other (d : Dev) {r r' : Reg} {a b a' b' : Nat} (h : (r', a', b') ≠ (r, a, b)) (v : Nat) :
    (d.setWord r a b v).word r' a' b' = d.word r' a' b' := by
  have hk : regKey r' a' b' ≠ regKey r a b := fun e => h (by obtain ⟨h1, h2, h3⟩ := regKey_inj.mp e; rw [h1, h2, h3])
  simp [Dev.word, Dev.setWord, smapGet_put_other _ hk]

theorem Dev.word_lt (d : Dev) (r : Reg) (a b : Nat) : d.word r a b < 2 ^ 64 := by
  unfold Dev.word
  exact BitVec.isLt _

theorem natBitsAt_lt (v lo w : Nat) : natBitsAt v lo w < 2 ^ w := Nat.mod_lt _ (Nat.two_pow_pos w)

/-- A number in three parts: below, inside and above a field. -/
theorem nat_parts (v lo w : Nat) : v = 2 ^ lo * (2 ^ w * (v / 2 ^ (lo + w)) + natBitsAt v lo w) + v % 2 ^ lo := by
  have h3 : v / 2 ^ (lo + w) = v / 2 ^ lo / 2 ^ w := by rw [Nat.pow_add, Nat.div_div_eq_div_mul]
  rw [h3, natBitsAt, Nat.div_add_mod, Nat.div_add_mod]

theorem natSetBits_eq (v lo w x : Nat) :
    natSetBits v lo w x = 2 ^ lo * (2 ^ w * (v / 2 ^ (lo + w)) + x % 2 ^ w) + v % 2 ^ lo := by
  have h := nat_parts v lo w
  rw [Nat.mul_add] at h
  rw [Nat.mul_add, natSetBits, Nat.mul_comm (natBitsAt v lo w), Nat.mul_comm (x % 2 ^ w)]
  omega

theorem natSetBits_div (v lo w x : Nat) : natSetBits v lo w x / 2 ^ lo = 2 ^ w * (v / 2 ^ (lo + w)) + x % 2 ^ w := by
  rw [natSetBits_eq, Nat.mul_add_div (Nat.two_pow_pos lo), Nat.div_eq_of_lt (Nat.mod_lt _ (Nat.two_pow_pos lo)), Nat.add_zero]

/-- A field that was written reads what was written. -/
theorem natBitsAt_set (v lo w x : Nat) : natBitsAt (natSetBits v lo w x) lo w = x % 2 ^ w := by
  rw [natBitsAt, natSetBits_div, Nat.mul_add_mod_self_left, Nat.mod_mod]

/-- A bit of a field is a bit of the number. -/
theorem testBit_natBitsAt (v lo w i : Nat) : (natBitsAt v lo w).testBit i = (decide (i < w) && v.testBit (lo + i)) := by
  rw [natBitsAt, Nat.testBit_mod_two_pow, Nat.testBit_div_two_pow, Nat.add_comm i lo]

theorem testBit_natSetBits (v lo w x i : Nat) :
    (natSetBits v lo w x).testBit i = if lo ≤ i ∧ i < lo + w then x.testBit (i - lo) else v.testBit i := by
  by_cases hlo : i < lo
  · have h : natSetBits v lo w x % 2 ^ lo = v % 2 ^ lo := by
      rw [natSetBits_eq, Nat.mul_add_mod_self_left, Nat.mod_mod]
    have h2 : (natSetBits v lo w x % 2 ^ lo).testBit i = (v % 2 ^ lo).testBit i := by rw [h]
    rw [Nat.testBit_mod_two_pow, Nat.testBit_mod_two_pow] at h2
    simp only [hlo, decide_true, Bool.true_and] at h2
    rw [h2, if_neg (by omega)]
  · have hi : i = (i - lo) + lo := by omega
    have h : (natSetBits v lo w x).testBit i = (2 ^ w * (v / 2 ^ (lo + w)) + x % 2 ^ w).testBit (i - lo) := by
      rw [← natSetBits_div, Nat.testBit_div_two_pow, ← hi]
    rw [h, Nat.testBit_two_pow_mul_add _ (Nat.mod_lt _ (Nat.two_pow_pos w))]
    by_cases hw : i - lo < w
    · rw [if_pos hw, if_pos (by omega), Nat.testBit_mod_two_pow]
      simp [hw]
    · rw [if_neg hw, if_neg (by omega), Nat.testBit_div_two_pow]
      congr 1
      omega

/-- A field elsewhere in the number keeps its value. -/
theorem natBitsAt_set_other (v lo w x lo' w' : Nat) (h : lo' + w' ≤ lo ∨ lo + w ≤ lo') :
    natBitsAt (natSetBits v lo w x) lo' w' = natBitsAt v lo' w' := by
  apply Nat.eq_of_testBit_eq
  intro i
  rw [testBit_natBitsAt, testBit_natBitsAt, testBit_natSetBits]
  by_cases hi : i < w'
  · rw [if_neg (by omega)]
  · simp [hi]

theorem natSetBits_lt {v lo w : Nat} (x n : Nat) (hv : v < 2 ^ n) (h : lo + w ≤ n) : natSetBits v lo w x < 2 ^ n := by
  apply Nat.lt_pow_two_of_testBit
  intro i hi
  rw [testBit_natSetBits, if_neg (by omega)]
  exact Nat.testBit_lt_two_pow (Nat.lt_of_lt_of_le hv (Nat.pow_le_pow_right (by decide) hi))

/-- A field of a register reads what was written into it. -/
theorem Dev.get_set_same (d : Dev) (f : Fld) (v a b : Nat) (h : f.lo + f.w ≤ 64) : (d.set f v a b).get f a b = v % 2 ^ f.w := by
  rw [Dev.get, Dev.set, Dev.word_setWord_same, Nat.mod_eq_of_lt (natSetBits_lt v 64 (d.word_lt _ _ _) h), natBitsAt_set]

/-- Another field of the same register keeps its value. -/
theorem Dev.get_set_field (d : Dev) (f g : Fld) (v a b : Nat) (hr : g.reg = f.reg) (h : f.lo + f.w ≤ 64)
    (hd : g.lo + g.w ≤ f.lo ∨ f.lo + f.w ≤ g.lo) : (d.set f v a b).get g a b = d.get g a b := by
  rw [Dev.get, Dev.set, hr, Dev.word_setWord_same, Nat.mod_eq_of_lt (natSetBits_lt v 64 (d.word_lt _ _ _) h),
    natBitsAt_set_other _ _ _ _ _ _ hd, Dev.get, hr]

/-- A field of another register keeps its value. -/
theorem Dev.get_set_other (d : Dev) (f g : Fld) (v a b a' b' : Nat) (h : (g.reg, a', b') ≠ (f.reg, a, b)) :
    (d.set f v a b).get g a' b' = d.get g a' b' := by
  rw [Dev.get, Dev.set, Dev.word_setWord_other d h, Dev.get]

/-- A field of a register keeps its value when another register is written, whatever the indices. -/
theorem Dev.get_set_reg (d : Dev) (f g : Fld) (v a b a' b' : Nat) (h : g.reg ≠ f.reg) : (d.set f v a b).get g a' b' = d.get g a' b' :=
  Dev.get_set_other d f g v a b a' b' fun e => h (congrArg Prod.fst e)

/-- A field of one instance keeps its value when another instance of the family is written. -/
theorem Dev.get_set_instance (d : Dev) (f g : Fld) (v a b a' b' : Nat) (h : (a', b') ≠ (a, b)) :
    (d.set f v a b).get g a' b' = d.get g a' b' :=
  Dev.get_set_other d f g v a b a' b' fun e => h (congrArg Prod.snd e)

@[simp] theorem Dev.set_mem (d : Dev) (f : Fld) (v a b : Nat) : (d.set f v a b).mem = d.mem := by unfold Dev.set; simp
@[simp] theorem Dev.set_poison (d : Dev) (f : Fld) (v a b : Nat) : (d.set f v a b).poison = d.poison := by unfold Dev.set; simp
@[simp] theorem Dev.set_written (d : Dev) (f : Fld) (v a b : Nat) : (d.set f v a b).written = d.written := by unfold Dev.set; simp
@[simp] theorem Dev.set_cores (d : Dev) (f : Fld) (v a b : Nat) : (d.set f v a b).cores = d.cores := by unfold Dev.set; simp
@[simp] theorem Dev.set_rcache (d : Dev) (f : Fld) (v a b : Nat) : (d.set f v a b).rcache = d.rcache := by unfold Dev.set; simp
@[simp] theorem Dev.set_walks (d : Dev) (f : Fld) (v a b : Nat) : (d.set f v a b).walks = d.walks := by unfold Dev.set; simp
@[simp] theorem Dev.set_queues (d : Dev) (f : Fld) (v a b : Nat) : (d.set f v a b).queues = d.queues := by unfold Dev.set; simp
@[simp] theorem Dev.set_parts (d : Dev) (f : Fld) (v a b : Nat) : (d.set f v a b).parts = d.parts := by unfold Dev.set; simp
@[simp] theorem Dev.set_coh (d : Dev) (f : Fld) (v a b : Nat) : (d.set f v a b).coh = d.coh := by unfold Dev.set; simp
@[simp] theorem Dev.set_hbm (d : Dev) (f : Fld) (v a b : Nat) : (d.set f v a b).hbm = d.hbm := by unfold Dev.set; simp
@[simp] theorem Dev.set_tempo (d : Dev) (f : Fld) (v a b : Nat) : (d.set f v a b).tempo = d.tempo := by unfold Dev.set; simp
@[simp] theorem Dev.set_host (d : Dev) (f : Fld) (v a b : Nat) : (d.set f v a b).host = d.host := by unfold Dev.set; simp
@[simp] theorem Dev.set_reel (d : Dev) (f : Fld) (v a b : Nat) : (d.set f v a b).reel = d.reel := by unfold Dev.set; simp
@[simp] theorem Dev.set_floor (d : Dev) (f : Fld) (v a b : Nat) : (d.set f v a b).floor = d.floor := by unfold Dev.set; simp
@[simp] theorem Dev.set_minuet (d : Dev) (f : Fld) (v a b : Nat) : (d.set f v a b).minuet = d.minuet := by unfold Dev.set; simp
@[simp] theorem Dev.set_out (d : Dev) (f : Fld) (v a b : Nat) : (d.set f v a b).out = d.out := by unfold Dev.set; simp
@[simp] theorem Dev.set_variantB (d : Dev) (f : Fld) (v a b : Nat) : (d.set f v a b).variantB = d.variantB := by unfold Dev.set; simp
@[simp] theorem Dev.set_fresh (d : Dev) (f : Fld) (v a b : Nat) : (d.set f v a b).fresh = d.fresh := by unfold Dev.set; simp
@[simp] theorem Dev.set_clock (d : Dev) (f : Fld) (v a b : Nat) : (d.set f v a b).clock = d.clock := by unfold Dev.set; simp
@[simp] theorem Dev.set_halted (d : Dev) (f : Fld) (v a b : Nat) : (d.set f v a b).halted = d.halted := by unfold Dev.set; simp

end Sys2Proof.Machine
end

