-- ==== Sys2Proof/Laws/Issue.lean ====
section
/-! SUPPORT. What issuing an instruction does, said once: its body, when the thread can issue and the decode checks pass; otherwise the
error or the wait. -/

namespace Sys2Proof.Machine

open Sys2Proof

variable {s : State} {w : Who} {c : Core} {r : Run} {g : Grp}

/-- A command of a live device answers its effect. -/
theorem State.live_of (h : s.dev.halted = false) (f : Dev → Dev) : s.live f = .next { s with dev := f s.dev } := by
  simp [State.live, h]

theorem State.test_of (h : s.dev.halted = false) (f : Dev → Dev) : s.test f = .next { s with dev := f s.dev } := by
  simp [State.test, h]

/-- A thread that can issue, with checks that pass and no drain to wait for, runs the body. -/
theorem State.Issues.issue (h : s.Issues w c r g) {leadOk : Bool} {regs : List Nat} {bad : Core → Run → Grp → Bool}
    {body : Core → Run → Grp → Dev} (hl : thrIsLead w.thr = false ∨ leadOk = true) (hb : bad c r g = false)
    (hd : thrDrain r w.thr regs = none) : Dev.issue w leadOk regs bad body s.dev = body c r g := by
  have hl' : (thrIsLead w.thr && !leadOk) = false := by rcases hl with h | h <;> simp [h]
  simp [Dev.issue, h.core, h.run, h.thr, h.works, h.active, h.may, h.code, h.word, hl', hb, hd]

/-- A word that fails a decode check raises ILLEGAL_INSTRUCTION. -/
theorem State.Issues.illegal (h : s.Issues w c r g) {leadOk : Bool} {regs : List Nat} {bad : Core → Run → Grp → Bool}
    {body : Core → Run → Grp → Dev} (hb : bad c r g = true ∨ (thrIsLead w.thr = true ∧ leadOk = false)) :
    Dev.issue w leadOk regs bad body s.dev = s.dev.instError w c r g errIllegal := by
  rcases hb with hb | ⟨h1, h2⟩
  · simp [Dev.issue, h.core, h.run, h.thr, h.works, h.active, h.may, h.code, h.word, hb]
  · simp [Dev.issue, h.core, h.run, h.thr, h.works, h.active, h.may, h.code, h.word, h1, h2]

/-- Nothing is waited for when no register is named. -/
@[simp] theorem thrDrain_nil (r : Run) (t : Thr) : thrDrain r t [] = none := by
  cases t with
  | group i =>
    have h : r.drainHit i.val [] = none := by
      rw [Run.drainHit]
      apply List.find?_eq_none.mpr
      intro a _
      split <;> simp
    simp only [thrDrain, h, Grp.awaits]
    cases smapGet? r.groups i.val with
    | none => rfl
    | some g =>
      have : g.away.filter (fun x => x.2.any fun v => ([] : List Nat).contains v) = [] := by simp
      simp only [Option.map_some, this, List.map_nil]
  | lead k => rfl

theorem Run.thr_putThr_same (r : Run) (t : Thr) (g : Grp) : (r.putThr t g).thr t = some g := by
  cases t <;> simp [Run.thr, Run.putThr]

/-- The thread of an actor is the one that was stored. -/
theorem State.thread_withThr (s : State) (w : Who) (c : Core) (r : Run) (g : Grp) : (s.withThr w c r g).thread w = some g := by
  simp [State.thread, State.withThr, State.withDev, Dev.putThr, Run.thr_putThr_same]

/-! ### Registers of a thread -/

theorem rowGet_rowOf (f : Nat → W32) {t : Nat} (h : t < 64) : rowGet (rowOf f) t = f t := by
  simp [rowGet, rowOf, List.getD_eq_getElem?_getD, h]

theorem Grp.vreg_setVreg_same (g : Grp) (n : Nat) (m : Mask) (f : Nat → W32) {t : Nat} (h : t < 64) :
    (g.setVreg n m f).vreg n t = if m.getLsbD t then f t else g.vreg n t := by
  rw [Grp.vreg, Grp.setVreg]
  simp only [smapGet_put_same]
  rw [rowGet_rowOf _ h]

theorem Grp.vreg_setVreg_other (g : Grp) {n i : Nat} (hi : i ≠ n) (m : Mask) (f : Nat → W32) (t : Nat) :
    (g.setVreg n m f).vreg i t = g.vreg i t := by
  simp [Grp.vreg, Grp.setVreg, smapGet_put_other _ hi]

@[simp] theorem Grp.step_vreg (g : Grp) (n t : Nat) : g.step.vreg n t = g.vreg n t := rfl
@[simp] theorem Grp.step_operand (g : Grp) (wd : Bool) (n t : Nat) : g.step.operand wd n t = g.operand wd n t := rfl
@[simp] theorem Grp.step_predReg (g : Grp) (n : Nat) : g.step.predReg n = g.predReg n := rfl
@[simp] theorem Grp.step_ureg (g : Grp) (n : Nat) : g.step.ureg n = g.ureg n := rfl
@[simp] theorem Grp.countArith_vreg (g : Grp) (k n t : Nat) : (g.countArith k).vreg n t = g.vreg n t := rfl
@[simp] theorem Grp.countArith_operand (g : Grp) (k : Nat) (wd : Bool) (n t : Nat) :
    (g.countArith k).operand wd n t = g.operand wd n t := rfl

@[simp] theorem Grp.ureg_setUreg_same (g : Grp) (n : Nat) (x : W64) : (g.setUreg n x).ureg n = x := by
  simp [Grp.ureg, Grp.setUreg]

theorem Grp.ureg_setUreg_other (g : Grp) {n i : Nat} (h : i ≠ n) (x : W64) : (g.setUreg n x).ureg i = g.ureg i := by
  simp [Grp.ureg, Grp.setUreg, smapGet_put_other _ h]

/-- A written operand reads back in the threads of the mask, and the rest of it stays. -/
theorem Grp.operand_setOperand (g : Grp) (wd : Bool) (n : Nat) (m : Mask) (vals : List W64) {t : Nat} (h : t < 64) :
    (g.setOperand wd n m vals).operand wd n t =
      if m.getLsbD t then (if wd then vals.getD t 0 else ((vals.getD t 0).setWidth 32).setWidth 64) else g.operand wd n t := by
  cases wd
  · simp only [Grp.operand, Grp.setOperand, Bool.false_eq_true, if_false]
    rw [Grp.vreg_setVreg_same _ _ _ _ h]
    split <;> rfl
  · simp only [Grp.operand, Grp.setOperand, if_true]
    rw [Grp.vreg_setVreg_same _ _ _ _ h, Grp.vreg_setVreg_other _ (Nat.ne_of_lt (Nat.lt_succ_self n)),
      Grp.vreg_setVreg_same _ _ _ _ h, Grp.vreg_setVreg_other _ (Nat.succ_ne_self n)]
    by_cases hm : m.getLsbD t
    · simp only [hm, if_true]
      apply BitVec.eq_of_getLsbD_eq
      intro i hi
      rw [BitVec.getLsbD_append]
      by_cases h32 : i < 32
      · simp [h32]
      · simp [h32, show i - 32 < 32 by omega, show 32 + (i - 32) = i by omega]
    · simp only [hm]
      rfl

theorem Grp.vreg_setOperand_other (g : Grp) (wd : Bool) {n i : Nat} (h1 : i ≠ n) (h2 : wd = true → i ≠ n + 1) (m : Mask)
    (vals : List W64) (t : Nat) : (g.setOperand wd n m vals).vreg i t = g.vreg i t := by
  cases wd
  · simp only [Grp.setOperand, Bool.false_eq_true, if_false]
    rw [Grp.vreg_setVreg_other _ h1]
  · simp only [Grp.setOperand, if_true]
    rw [Grp.vreg_setVreg_other _ (h2 rfl), Grp.vreg_setVreg_other _ h1]

/-- A write of vector registers changes nothing else. -/
theorem Grp.setOperand_frame (g : Grp) (wd : Bool) (n : Nat) (m : Mask) (vals : List W64) :
    { g.setOperand wd n m vals with v := g.v } = g := by
  cases wd <;> rfl

theorem Grp.predReg_setPred_other (g : Grp) {n i : Nat} (h : i ≠ n) (m b : Mask) : (g.setPred n m b).predReg i = g.predReg i := by
  unfold Grp.setPred
  split
  · rfl
  · simp [Grp.predReg, smapGet_put_other _ h]

theorem Grp.predReg_setPred_same (g : Grp) (n : Nat) (m b : Mask) :
    (g.setPred n m b).predReg n = if n = 7 then maskAll else (g.predReg n &&& ~~~m) ||| (b &&& m) := by
  by_cases h : n = 7
  · simp [h, Grp.predReg]
  · simp [Grp.setPred, h, Grp.predReg]

theorem maskUpTo_bit (f : Nat → Bool) (n t : Nat) (ht : t < 64) : (maskUpTo n f).getLsbD t = (decide (t < n) && f t) := by
  induction n with
  | zero => simp [maskUpTo]
  | succ n ih =>
    rw [maskUpTo, BitVec.getLsbD_or, ih]
    by_cases hf : f n
    · simp only [hf, if_true]
      rw [BitVec.getLsbD_shiftLeft, BitVec.getLsbD_one]
      by_cases h1 : t = n
      · subst h1
        simp [ht, hf]
      · have h2 : decide (t - n = 0) = decide (t < n) := by
          apply Bool.eq_iff_iff.mpr
          simp only [decide_eq_true_eq]
          omega
        by_cases h3 : t < n
        · simp [h3, Nat.lt_succ_of_lt h3]
        · have h4 : ¬ t < n + 1 := by omega
          have h5 : ¬ t - n = 0 := by omega
          simp [h3, h4, h5]
    · simp only [hf, Bool.false_eq_true, if_false]
      by_cases h1 : t = n
      · subst h1
        simp [hf]
      · have h2 : (t < n + 1) ↔ (t < n) := by omega
        simp [h2]

/-- Bit t of a mask built from a function. -/
theorem maskOf_bit (f : Nat → Bool) {t : Nat} (ht : t < 64) : (maskOf f).getLsbD t = f t := by
  rw [maskOf, maskUpTo_bit _ _ _ ht]
  simp [ht]

end Sys2Proof.Machine
end

