-- ==== Sys2Proof/Laws/Mem.lean ====
section
/-! SUPPORT. Byte memory: every operation keeps the canonical form, a written byte reads back, and no other byte changes. -/

namespace Sys2Proof.Machine

open Sys2Proof

/-- The canonical form as a sorted list: what the recursion of `memWf` says at each cell. -/
theorem memWf_cons {k : Nat} {b : Byte} {t : Mem} :
    memWf ((k, b) :: t) = true ↔ b ≠ 0 ∧ (∀ c ∈ t, k < c.1) ∧ memWf t = true := by
  induction t generalizing k b with
  | nil => simp [memWf]
  | cons h t ih =>
    obtain ⟨k', c⟩ := h
    simp only [memWf, Bool.and_eq_true, bne_iff_ne, ne_eq, decide_eq_true_eq, List.mem_cons, forall_eq_or_imp]
    constructor
    · rintro ⟨⟨hb, hk⟩, ht⟩
      exact ⟨hb, ⟨hk, fun x hx => Nat.lt_trans hk ((ih.mp ht).2.1 x hx)⟩, ht⟩
    · rintro ⟨hb, ⟨hk, _⟩, ht⟩
      exact ⟨⟨hb, hk⟩, ht⟩

/-- A byte below every listed address is unlisted. -/
theorem memGet_below {m : Mem} {a : Nat} (h : ∀ c ∈ m, a < c.1) : memGet m a = 0 := by
  induction m with
  | nil => rfl
  | cons c t ih =>
    obtain ⟨k, b⟩ := c
    simp only [memGet]
    rw [if_neg]
    · exact ih fun x hx => h x (List.mem_cons_of_mem _ hx)
    · have := h (k, b) (List.mem_cons_self ..)
      simp only at this
      omega

theorem memPut_mem {m : Mem} {a : Nat} {b : Byte} {c : Host.Cell} (h : c ∈ memPut m a b) : c = (a, b) ∨ c ∈ m := by
  induction m with
  | nil =>
    simp only [memPut] at h
    split at h <;> simp_all
  | cons x t ih =>
    obtain ⟨k, v⟩ := x
    simp only [memPut] at h
    split at h
    · split at h
      · exact .inr h
      · exact List.mem_cons.mp h
    · split at h
      · split at h
        · exact .inr (List.mem_cons_of_mem _ h)
        · exact (List.mem_cons.mp h).imp_right (List.mem_cons_of_mem _)
      · rcases List.mem_cons.mp h with h | h
        · exact .inr (h ▸ List.mem_cons_self ..)
        · exact (ih h).imp_right (List.mem_cons_of_mem _)

/-- A written byte keeps the canonical form. -/
theorem memPut_wf {m : Mem} (a : Nat) (b : Byte) (h : memWf m = true) : memWf (memPut m a b) = true := by
  induction m with
  | nil =>
    simp only [memPut]
    split
    · rfl
    · rename_i hb
      exact memWf_cons.mpr ⟨hb, by simp, rfl⟩
  | cons x t ih =>
    obtain ⟨k, v⟩ := x
    obtain ⟨hv, hk, ht⟩ := memWf_cons.mp h
    simp only [memPut]
    split
    · rename_i ha
      split
      · exact h
      · rename_i hb
        refine memWf_cons.mpr ⟨hb, fun c hc => ?_, h⟩
        rcases List.mem_cons.mp hc with rfl | hc
        · exact ha
        · exact Nat.lt_trans ha (hk c hc)
    · split
      · rename_i ha
        split
        · exact ht
        · rename_i hb
          exact memWf_cons.mpr ⟨hb, fun c hc => ha ▸ hk c hc, ht⟩
      · rename_i h1 h2
        refine memWf_cons.mpr ⟨hv, fun c hc => ?_, ih ht⟩
        rcases memPut_mem hc with rfl | hc
        · show k < a
          omega
        · exact hk c hc

theorem memWrite_wf {m : Mem} (a : Nat) (bs : List Byte) (h : memWf m = true) : memWf (memWrite m a bs) = true := by
  induction bs generalizing m a with
  | nil => exact h
  | cons b t ih => exact ih (a + 1) (memPut_wf a b h)

/-- Dropping entries keeps the canonical form. -/
theorem memFilter_wf {m : Mem} (p : Host.Cell → Bool) (h : memWf m = true) : memWf (m.filter p) = true := by
  induction m with
  | nil => rfl
  | cons x t ih =>
    obtain ⟨k, v⟩ := x
    obtain ⟨hv, hk, ht⟩ := memWf_cons.mp h
    rw [List.filter_cons]
    split
    · exact memWf_cons.mpr ⟨hv, fun c hc => hk c (List.mem_filter.mp hc).1, ih ht⟩
    · exact ih ht

theorem memClear_wf {m : Mem} (lo hi : Nat) (h : memWf m = true) : memWf (memClear m lo hi) = true := memFilter_wf _ h

/-- A written byte reads back. -/
theorem memGet_put_same {m : Mem} (a : Nat) (b : Byte) (h : memWf m = true) : memGet (memPut m a b) a = b := by
  induction m with
  | nil =>
    simp only [memPut]
    split
    · rename_i hb
      exact hb.symm
    · simp [memGet]
  | cons x t ih =>
    obtain ⟨k, v⟩ := x
    obtain ⟨hv, hk, ht⟩ := memWf_cons.mp h
    simp only [memPut]
    split
    · rename_i ha
      split
      · rename_i hb
        rw [hb]
        apply memGet_below
        intro c hc
        rcases List.mem_cons.mp hc with rfl | hc
        · exact ha
        · exact Nat.lt_trans ha (hk c hc)
      · simp [memGet]
    · split
      · rename_i ha
        split
        · rename_i hb
          rw [hb]
          exact memGet_below fun c hc => ha ▸ hk c hc
        · simp [memGet]
      · rename_i h1 h2
        rw [memGet, if_neg (Ne.symm h2)]
        exact ih ht

/-- Every other byte stays. -/
theorem memGet_put_other {m : Mem} {a i : Nat} (hi : i ≠ a) (b : Byte) : memGet (memPut m a b) i = memGet m i := by
  induction m with
  | nil =>
    simp only [memPut]
    split
    · rfl
    · simp [memGet, Ne.symm hi]
  | cons x t ih =>
    obtain ⟨k, v⟩ := x
    simp only [memPut]
    split
    · split
      · rfl
      · simp [memGet, Ne.symm hi]
    · split
      · rename_i ha
        split
        · simp [memGet, ← ha, Ne.symm hi]
        · simp [memGet, ← ha, Ne.symm hi]
      · simp only [memGet]
        split
        · rfl
        · exact ih

/-- Bytes outside a written range stay. -/
theorem memGet_write_other {m : Mem} {a i : Nat} {bs : List Byte} (h : i < a ∨ a + bs.length ≤ i) :
    memGet (memWrite m a bs) i = memGet m i := by
  induction bs generalizing m a with
  | nil => rfl
  | cons b t ih =>
    simp only [List.length_cons] at h
    rw [memWrite, ih (by omega), memGet_put_other (by omega)]

/-- A written range reads back. -/
theorem memRead_write_same {m : Mem} (a : Nat) (bs : List Byte) (h : memWf m = true) :
    memRead (memWrite m a bs) a bs.length = bs := by
  induction bs generalizing m a with
  | nil => rfl
  | cons b t ih =>
    rw [List.length_cons, memRead, memWrite, ih (a + 1) (memPut_wf a b h), memGet_write_other (by omega), memGet_put_same a b h]

/-- Bytes read outside a written range stay. -/
theorem memRead_write_other {m : Mem} {a i n : Nat} {bs : List Byte} (h : i + n ≤ a ∨ a + bs.length ≤ i) :
    memRead (memWrite m a bs) i n = memRead m i n := by
  induction n generalizing i with
  | zero => rfl
  | succ n ih => rw [memRead, memRead, memGet_write_other (by omega), ih (by omega)]

/-- A line of memory that was written keeps the canonical form. -/
theorem Dev.setMemLine_wf (d : Dev) (n : Nat) (x : Line) (h : memWf d.mem = true) : memWf (d.setMemLine n x).mem = true := by
  have hw := memWrite_wf (64 * n) (leBytes 64 x.toNat) h
  simpa only [Dev.setMemLine] using hw

end Sys2Proof.Machine
end

