-- ==== Sys2Proof/Tests/Slice0.lean ====
section
/-! SUPPORT. Tests: ill-formed commands are refused, words decode as the spec writes them, and for every statement with hypotheses a
concrete state that meets them, clause by clause. -/

namespace Sys2Proof.Tests

open Sys2Proof Sys2Proof.Machine

set_option Elab.async false

/-! ### Small states -/

/-- The device of reset with changes. -/
def onDev (d : Dev) : State := { pending := [], dev := d }

def always : Pred := { ps := 7, pn := false }
def never : Pred := { ps := 7, pn := true }

/-- A group of one launch, and its header: 64 vector registers, one ring, four code words from word 10 on. -/
def grp (pc : Nat) (live : Mask) : Grp := { Grp.launch 7 9 64 0 0 pc 0 with live := live, active := live, sched := .active }
def ring0 : Ring := { base := 0, slots := 2, slotSize := 64, consumers := 1, leadEntry := 12, next := 1, fills := [] }
def hdr0 : Header :=
  { vregs := 64, unit := 1, groups := 2, maxDiverge := 32, nearCache := 2, arrayWidth := 0, minArrays := 0, followEntry := 10,
    codeWords := 4, scratchBytes := 4096, rings := [ring0] }
def array0 : ArrayRun :=
  { binding := .free, buf0 := { owner := none, fmt := 0, tile := [] }, buf1 := { owner := none, fmt := 0, tile := [] },
    bank0 := { st := .free, acc := [] }, bank1 := { st := .free, acc := [] }, ops := [] }
def run0 : Run :=
  { part := 1, q := 3, slot := 4, ctx := 5, troupe := 6, cores := [0], place := 0, hdr := hdr0, walk := false, prefetch := false,
    seq := 9, args := [11], groups := [(0, grp 10 (BitVec.allOnes 64)), (1, grp 13 0xF0)], leads := [(0, { Grp.lead 12 with pc := 12 })],
    rings := [ring0], scratch := [], arrays := [array0, array0, array0, array0], mtx := none, clock := 0 }

/-- Core 0 runs the troupe r. -/
def running (r : Run) : State := onDev (Dev.reset.setCore 0 { Core.built with run := some r })
def coreOf (r : Run) : Core := { Core.built with run := some r }

/-- The first and last thread of the troupe, and its lead thread. -/
def who0 : Who := ⟨0, .group 0⟩
def who1 : Who := ⟨0, .group 1⟩
def whoL : Who := ⟨0, .lead 0⟩

theorem issues_of {r : Run} {w : Who} {g : Grp} (hw : w.core.val = 0) (ht : r.thr w.thr = some g) (ha : g.sched = .active)
    (hc : r.hdr.inCode g.pc = true) : (running r).Issues w (coreOf r) r g where
  live := rfl
  core := by rw [hw]; simp [running, onDev, coreOf, Dev.core, Dev.setCore]
  run := rfl
  thr := ht
  works := rfl
  active := ha
  may := rfl
  code := hc
  word := rfl

/-- The three threads of the troupe can issue: at the first word, at the last word, and a lead thread. -/
theorem issues0 : (running run0).Issues who0 (coreOf run0) run0 (grp 10 (BitVec.allOnes 64)) := issues_of rfl rfl rfl rfl
theorem issues1 : (running run0).Issues who1 (coreOf run0) run0 (grp 13 0xF0) := issues_of rfl rfl rfl rfl
theorem issuesL : (running run0).Issues whoL (coreOf run0) run0 (Grp.lead 12) := issues_of rfl rfl rfl rfl

def vop (ty : BitVec 3) : VOp := { pr := always, vd := 62, vs1 := 2, vs2 := 4, vs3 := 6, s2k := 0, ty := ty, pd := 7, aux := 0 }
def uop : UOp := { pr := always, ud := 63, us1 := 0, us2 := 1, imm := true, pd := 7, imm20 := 0xFFFFF }
def mop : MOp :=
  { pr := always, vd := 48, va := 0, amask := 1, wb := false, fmt := 14, init := 1, gth := false, ua := 0, dfmt := false, stat := false }

/-! ### Witnesses: Jular -/

/-- Every row has operands that pass its checks; the first and the last thread may be outside the effective mask. -/
theorem witness_VectorResult :
    (∀ row ∈ vectorRows, ∃ ty, row.shape.bad 64 true (vop ty) = false ∧ thrDrain run0 who1.thr (vopRegs row.shape true (vop ty)) = none
      ∧ (VTy.ofCode ty = .f64 → (grp 13 0xF0).eff always = 0 ∨ run0.walk = false))
    ∧ (compareShape.bad 64 false (vop 3) = false ∧ thrDrain run0 who1.thr (vopRegs compareShape false (vop 3)) = none)
    ∧ (running run0).Issues who1 (coreOf run0) run0 (grp 13 0xF0) ∧ thrIsLead who1.thr = false :=
  ⟨by decide +kernel, by decide +kernel, issues1, rfl⟩

/-- The first divisor that is not 0. -/
theorem witness_IntegerFunctionValues : (1 : BitVec 32) ≠ 0 := by decide

/-- The largest code of a format, a NaN of each of two formats and numbers beside them; a format's smallest NaN code. -/
theorem witness_FloatingPointValues :
    (0xFBFF < 2 ^ fpF16.width ∧ (Fp.decode fpF16 0xFBFF).isNan = false) ∧ (Fp.decode fpF32 0x7F800001).isNan = true
    ∧ (Fp.decode fpF32 0xFFFFFFFF).isNan = true ∧ (Fp.decode fpF32 0x7F800000).isNan = false ∧ isIntType 2 = false
    ∧ (Fp.decode fpF64 0x7FF0000000000001).isNan = true := by decide +kernel

theorem witness_ExchangeAndReductionResult :
    (exchangeShape.bad 64 true (vop 7) = false ∧ thrDrain run0 who1.thr (vopRegs exchangeShape true (vop 7)) = none)
    ∧ (reductionShape.bad 64 true (vop 5) = false ∧ thrDrain run0 who1.thr (vopRegs reductionShape true (vop 5)) = none)
    ∧ (running run0).Issues who1 (coreOf run0) run0 (grp 13 0xF0) ∧ thrIsLead who1.thr = false
    ∧ (let level : List (Option W64) := none :: List.replicate 63 (some 0xFFFFFFFF)
       level.length = 64 ∧ (∀ x ∈ level, ∀ y, x = some y → y.toNat < 2 ^ 32) ∧ (∃ x ∈ level, x ≠ none)) :=
  ⟨by decide +kernel, by decide +kernel, issues1, rfl, rfl, by simp [List.replicate], some 0xFFFFFFFF, by simp [List.replicate], nofun⟩

theorem witness_ConversionIndexAndDrawResult :
    (let o : CvtOp := { pr := always, vd := 63, vs1 := 62, sfmt := 1, dfmt := 6, ssel := 0, dsel := 3 }
     cvtSideBad 64 1 0 62 = false ∧ cvtSideBad 64 6 3 63 = false ∧ thrDrain run0 who1.thr (cvtRegs o) = none)
    ∧ ((vop 0).vd.toNat < run0.hdr.vregs ∧ thrDrain run0 who1.thr [62] = none)
    ∧ (regBad 64 true 62 = false ∧ predNever always = false ∧ thrDrain run0 who1.thr [62, 63] = none)
    ∧ (running run0).Issues who1 (coreOf run0) run0 (grp 13 0xF0) ∧ thrIsLead who1.thr = false :=
  ⟨by decide +kernel, by decide +kernel, by decide +kernel, issues1, rfl⟩

theorem witness_WeightsAndOnlineResult :
    (onlineBad run0 (vop 2) = false ∧ thrDrain run0 who1.thr (vopRegs onlineShape true (vop 2)) = none)
    ∧ (let o := { vop 7 with s2k := 1, vs3 := 62, vd := 61, aux := 127 }
       wupdBad 64 o = false ∧ thrDrain run0 who1.thr (wupdRegs o) = none ∧ predNever o.pr = false)
    ∧ (running run0).Issues who1 (coreOf run0) run0 (grp 13 0xF0) ∧ thrIsLead who1.thr = false :=
  ⟨by decide +kernel, by decide +kernel, issues1, rfl⟩

/-- A follow group and a lead thread. -/
theorem witness_UniformResult :
    (running run0).Issues who0 (coreOf run0) run0 (grp 10 (BitVec.allOnes 64))
    ∧ (running run0).Issues whoL (coreOf run0) run0 (Grp.lead 12) := ⟨issues0, issuesL⟩

/-- A word past the code region, a register past the last, a lead thread, and a ring that the header does not have. -/
theorem witness_IllegalWordsEndTheCommand :
    run0.hdr.inCode 14 = false ∧ run0.hdr.inCode 9 = false ∧ thrIsLead whoL.thr = true ∧ run0.hdr.rings.length ≤ 1
    ∧ (∀ row ∈ vectorRows, row.shape.bad 64 true { vop 0 with vd := 64 } = true)
    ∧ compareShape.bad 64 false { vop 0 with vs1 := 64 } = true
    ∧ memBad 0 { pr := always, vr := 0, ub := 0, vx := 0, am := 0, scope := 0, size := 5, sem := 0, off16 := 0, fn := 0 } run0 = true
    ∧ (running run0).dev.core 0 = coreOf run0 ∧ run0.thr whoL.thr = some (Grp.lead 12) := by decide +kernel

/-- The group 0, with its whole live mask, an array of its own chain, and a group with part of its live mask. -/
theorem witness_MatrixResult :
    (let r := { run0 with arrays := [array0, { array0 with buf0 := { owner := some 1, fmt := 14, tile := [] } },
                  { array0 with binding := .chain 1 true, bank1 := { st := .opened, acc := [] } }] }
     let g := grp 13 0xF0
     (running r).Issues who1 (coreOf r) r g ∧ g.eff mop.pr = g.live ∧ g.live ≠ 0
       ∧ (amaskArrays 1 = [0] ∧ r.mtxFree 1 = true ∧ { r with mtx := some 1 }.mtxFree 1 = true ∧ r.arrayBlocked 0 1 = false ∧ mmaFmtOk 14 = true ∧ (0 + tileBytes 14 ≤ (coreOf r).scratchSize r)
          ∧ r.poisoned 0 (tileBytes 14) = false)
       ∧ (amaskArrays 2 = [1] ∧ mmaBad r { mop with amask := 2 } = false ∧ thrDrain r who1.thr (mmaRegs mop) = none
          ∧ mmaArrayBad r { mop with amask := 2 } 1 = false ∧ mmaNoBank r { mop with amask := 2 } 1 = false
          ∧ r.arrayBlocked 1 1 = false)
       ∧ (amaskArrays 4 = [2] ∧ (r.arrays[2]?.map (·.binding)) = some (.chain 1 true) ∧ r.arrayBlocked 2 1 = false
          ∧ mop.vd.toNat % 16 = 0 ∧ mop.vd.toNat + 16 ≤ r.hdr.vregs))
    ∧ (let g := { grp 13 0xF0 with p := [(0, 0x10)] }
       g.eff { ps := 0, pn := false } ≠ 0 ∧ g.eff { ps := 0, pn := false } ≠ g.live ∧ g.eff never = 0
         ∧ amaskBad run0 1 = false ∧ amaskOne 1 = true ∧ 48 % 16 = 0 ∧ 48 + 16 ≤ run0.hdr.vregs
         ∧ thrDrain run0 who1.thr ((List.range 16).map (48 + ·)) = none) :=
  ⟨⟨issues_of rfl rfl rfl rfl, by decide +kernel, by decide +kernel, by decide +kernel, by decide +kernel, by decide +kernel⟩,
   by decide +kernel⟩

theorem witness_ArrayEventResult :
    (running run0).RunsOn 0 (coreOf run0) run0 ∧ run0.arrays[3]? = some array0
    ∧ (let x := { array0 with ops := [.load true [1]] }; x.ops = .load true [1] :: [])
    ∧ (let x := { array0 with ops := [.mac true false 0 []] }; x.ops = .mac true false 0 [] :: [])
    ∧ (let dr : Drain := { g := 1, vd := 48, bf16 := false, stat := true, width := 32 }
       let x := { array0 with bank1 := { st := .draining dr, acc := [] } }
       (x.bank true).st = .draining dr ∧ x.streaming true = false ∧ smapGet? run0.groups 1 = some (grp 13 0xF0))
    ∧ (let gs : SMap Grp := [(1, { grp 13 0xF0 with sched := .pendingWait (.array [3, 1]) })]
       array0.binding = .free
         ∧ (earliest (fun g => g.awaitsArray 3) gs).map (·.1) = some 1) :=
  ⟨⟨rfl, by simp [running, onDev, coreOf, Dev.core, Dev.setCore], rfl⟩, rfl, rfl, rfl, by decide +kernel, by decide +kernel⟩

/-! ### Witnesses: memory -/

def ent0 (pa pages : Nat) : Xent :=
  { ctx := 5, page := 16, pages := pages, rangePage := 16, rangePages := pages, pa := pa, read := true, write := true, atomic := true,
    sole := false, granular := false, word := 0, window := none }
def cmd0 : Cmd :=
  { Cmd.held 4 [] with st := .running, outputs := [{ va := 65536, len := 4096, mode := .inplace, table := 0, rangePage := 16, shadows := [] }] }

/-- The troupe r on core 0 with a near cache of u units, page 16 of its context mapped on the line pa, that page the output of its
command, and a token of the partition at every home. -/
def mapped (r : Run) (u : Nat) (pa : Nat) : State :=
  onDev (((Dev.reset.setCore 0 { coreOf r with nearUnits := u, tlb := [ent0 pa 1] }).setQueue 3
    { Queue.initial with st := .active, part := 1, ctx := 5, cmds := [cmd0] }).setTempo
      { Dev.reset.tempo with budgets := (List.range 13).foldl (fun m h => smapPut m (64 * h + 1) 99) [] })

def coreMapped (r : Run) (u pa : Nat) : Core := { coreOf r with nearUnits := u, tlb := [ent0 pa 1] }

theorem mapped_issues {r : Run} {u pa : Nat} {g : Grp} (ht : r.thr who1.thr = some g) (ha : g.sched = .active)
    (hc : r.hdr.inCode g.pc = true) (hm : (mapped r u pa).dev.mayIssue who1 r = true)
    (hw : (mapped r u pa).dev.reservedWord who1 r g = false) : (mapped r u pa).Issues who1 (coreMapped r u pa) r g where
  live := rfl
  core := by simp [mapped, onDev, coreMapped, coreOf, Dev.core, Dev.setCore, Dev.setQueue, Dev.setTempo, who1]
  run := rfl
  thr := ht
  works := rfl
  active := ha
  may := hm
  code := hc
  word := hw

/-- Four threads at the last words of the page. -/
def gm : Grp := { grp 13 0xF0 with u := [(0, 65536 + 4096 - 32)] }
def runM : Run := { run0 with groups := [(1, gm)] }
def memop : MemOp :=
  { pr := always, vr := 63, ub := 0, vx := 0, am := 1, scope := 7, size := 2, sem := 0, off16 := 0, fn := 0 }
def asM : List (Nat × Nat) := (threadsOf 0xF0).map fun t => (t, (gm.addr memop 4 t).toNat)


/-- Each load, through the near cache and past it, at the highest register and the last words of the mapped page. -/
theorem witness_LoadResult :
    (∀ u, (mapped runM u 0).Issues who1 (coreMapped runM u 0) runM gm) ∧ thrIsLead who1.thr = false ∧ gm.todo = none
    ∧ (∀ row ∈ loadRows, ∀ u ∈ [0, 2],
        let o := { memop with sem := BitVec.ofNat 3 row.2 }
        let x := (mapped runM u 0).dev.reach who1 runM 4 .read asM
        let y := x.2.2.loads who1 runM (row.2 = 0) 4 63 false x.1 Made.start
        memBad row.2 o runM = false ∧ thrDrain runM who1.thr (memRegs o ++ memVx o) = none
          ∧ gm.eff o.pr ≠ 0 ∧ (∀ a ∈ asM, a.2 < 2 ^ 57 ∧ a.2 % 4 = 0) ∧ x.2.1 = none ∧ y.1.halt = none ∧ y.1.remote = []
          ∧ ((y.2.acquireNear 0).core 0).run.isSome = true ∧ (y.2.core 0).run.isSome = true) :=
  ⟨fun _ => mapped_issues rfl rfl rfl rfl rfl, rfl, rfl, by decide +kernel⟩

/-- Each store at the last words of the mapped output; the two that zero a line at its last line. -/
theorem witness_StoreResult :
    (∀ u, (mapped runM u 0).Issues who1 (coreMapped runM u 0) runM gm) ∧ thrIsLead who1.thr = false ∧ gm.todo = none
    ∧ (∀ row ∈ storeRows, ∀ u ∈ [0, 2], ∃ sem ∈ [0, 3],
        let o := { memop with sem := sem, scope := if sem = 3 then 6 else 7, am := if row.bytes memop = 64 then 0 else 1 }
        let g := if row.bytes memop = 64 then { gm with u := [(0, 65536 + 4096 - 64)] } else gm
        let as := (threadsOf (gm.eff o.pr)).map fun t => (t, (g.addr o (row.bytes o) t).toNat)
        let d := (mapped runM u 0).dev
        let x := d.reach who1 runM (row.bytes o) .write as
        let d2 := if row.release then x.2.2.cleanNear 0 else x.2.2
        let y := d2.stores who1 runM (row.near && (d2.core 0).nearUnits ≠ 0) (row.bytes o) (row.val o g) x.1 [] Made.start
        let z := y.2.2.lineWrites 0 (runM.rq 0) row.update y.1 y.2.1
        row.bad o runM = false ∧ thrDrain runM who1.thr (row.regs o ++ memVx o) = none ∧ gm.eff o.pr ≠ 0
          ∧ d.precheck runM true (row.bytes o) (row.bytes o) (as.map (·.2)) = none ∧ x.2.1 = none
          ∧ x.2.2.releaseWaits who1 row.release o.scope.toNat = [] ∧ y.2.1.halt = none ∧ z.1.halt = none
          ∧ (z.2.core 0).run.isSome = true) :=
  ⟨fun _ => mapped_issues rfl rfl rfl rfl rfl, rfl, rfl, by decide +kernel⟩

/-- Each atomic, on four and on eight bytes, as a release and as an acquire. -/
theorem witness_AtomicResult :
    (∀ u, (mapped runM u 0).Issues who1 (coreMapped runM u 0) runM gm) ∧ thrIsLead who1.thr = false
    ∧ (∀ row ∈ atomicRows, ∀ p ∈ [((2 : BitVec 3), (4 : BitVec 3)), (3, 0)],
        let o := { memop with vr := 60, size := p.1, sem := p.2, fn := BitVec.ofNat 5 row.2, am := 0, scope := 6 }
        let n := sizeBytes p.1
        let as := (threadsOf 0xF0).map fun t => (t, (gm.addr o n t).toNat)
        let d := (mapped runM 2 0).dev
        let x := d.reach who1 runM n .atomic as
        let d2 := if o.sem = 4 then x.2.2.cleanNear 0 else x.2.2
        let y := d2.atomics who1 runM row.2 (p.1 = 3) (o.fn.getLsbD 4) 60 (gm.memVal 60 n) (gm.memVal (60 + n / 4) n) x.1 Made.start
        o.fn.toNat % 16 = row.2 ∧ atomBad o runM false = false
          ∧ thrDrain runM who1.thr ((if row.2 = 10 then memRegs o ++ (memRegs o).map (· + (memRegs o).length) else memRegs o) ++ memVx o)
              = none
          ∧ gm.eff o.pr ≠ 0 ∧ d.precheck runM true n n (as.map (·.2)) = none ∧ x.2.1 = none
          ∧ x.2.2.releaseWaits who1 (o.sem = 3 || o.sem = 4) 6 = [] ∧ y.1.halt = none ∧ y.1.remote = []
          ∧ ((y.2.acquireNear 0).core 0).run.isSome = true ∧ (y.2.core 0).run.isSome = true) :=
  ⟨fun _ => mapped_issues rfl rfl rfl rfl rfl, rfl, by decide +kernel⟩

/-- The first line of HBM, its last word, and the last line that is backed. -/
theorem plainLine {d : Dev} {n : Nat} (h : isHbm (64 * n) = true ∧ d.backed (64 * n) = true ∧ d.isPoisoned n = false
    ∧ (d.hbm.bad.contains n = false ∧ d.hbm.weak.contains n = false) ∧ d.lineBusy n = false ∧ ∀ a < 14, (d.aline a n).st = .i) : d.PlainLine n :=
  ⟨h.1, h.2.1, ⟨h.2.2.1, h.2.2.2.1⟩, h.2.2.2.2.1, h.2.2.2.2.2⟩

theorem witness_HomeMemoryResult :
    let d := (mapped runM 0 0).dev
    let rq : Rq := { part := 1, ctx := some 5, quad := some 0, num := 3 }
    d.backsOff (d.home 0) rq.num = false ∧ d.entryFor (d.home 0) rq.num = true
      ∧ d.backsOff (d.home (765 * (gib / 2) - 64)) rq.num = false ∧ d.entryFor (d.home (765 * (gib / 2) - 64)) rq.num = true
      ∧ d.PlainLine 0 ∧ d.PlainLine (765 * (gib / 2) / 64 - 1) ∧ memWf d.mem = true ∧ 56 / 64 = 0 ∧ 56 % 8 = 0
      ∧ 0 < smapGet d.tempo.budgets (64 * d.home 0 + rq.part) 0 ∧ (atomNew 9 64 0 5 0) = some 5 :=
  ⟨by decide +kernel, by decide +kernel, by decide +kernel, by decide +kernel, plainLine (by decide +kernel),
   plainLine (by decide +kernel), by decide +kernel⟩

/-- An address of 2^57, a misaligned one, and one past the declared output. -/
theorem witness_BadAddressesEndTheCommand :
    (∀ g, g = { gm with u := [(0, 2 ^ 57)] } ∨ g = { gm with u := [(0, 65537)] } ∨ g = { gm with u := [(0, 65536 + 4096 - 28)] } →
      (mapped { runM with groups := [(1, g)] } 0 0).Issues who1 (coreMapped { runM with groups := [(1, g)] } 0 0)
        { runM with groups := [(1, g)] } g)
    ∧ thrIsLead who1.thr = false ∧ gm.eff memop.pr ≠ 0
    ∧ (∀ row ∈ loadRows, memBad row.2 { memop with sem := BitVec.ofNat 3 row.2 } runM = false) ∧ statBad memop = false
    ∧ thrDrain runM who1.thr (memRegs memop ++ memVx memop) = none
    ∧ (∃ t ∈ threadsOf 0xF0, 2 ^ 57 ≤ ({ gm with u := [(0, 2 ^ 57)] }.addr memop 4 t).toNat)
    ∧ (∃ t ∈ threadsOf 0xF0, ({ gm with u := [(0, 65537)] }.addr memop 4 t).toNat % 4 ≠ 0)
    ∧ (let g := { gm with u := [(0, 65536 + 4096 - 28)] }
       (∀ t ∈ threadsOf 0xF0, (g.addr memop 4 t).toNat < 2 ^ 57 ∧ (g.addr memop 4 t).toNat % 4 = 0)
         ∧ (mapped runM 0 0).dev.cmd? 3 4 = some cmd0 ∧ ∃ t ∈ threadsOf 0xF0, cmd0.declares (g.addr memop 4 t).toNat 4 = false) :=
  ⟨by rintro g (rfl | rfl | rfl) <;> exact mapped_issues rfl rfl rfl rfl rfl, by decide +kernel⟩

/-- The last words below S, in the core's own scratch and, for a unit troupe, in the scratch that RANK names. -/
def gS : Grp := { grp 13 0xF0 with u := [(0, 524288 - 32)] }
def runS : Run := { run0 with groups := [(1, gS)], cores := [0, 1], hdr := { hdr0 with unit := 2 } }

theorem witness_ScratchAccessResult :
    let o := { memop with fn := 0 }
    let far := { memop with fn := 16 }
    let as := (threadsOf 0xF0).map fun t => (t, (gS.addr o 4 t).toNat)
    (running runS).Issues who1 (coreOf runS) runS gS ∧ thrIsLead who1.thr = false ∧ gS.eff o.pr ≠ 0
      ∧ memBad 0 o runS = false ∧ remoteBad o runS = false ∧ scratchCore who1 o runS = 0 ∧ atomBad o runS true = false
      ∧ thrDrain runS who1.thr (memRegs o ++ memVx o) = none ∧ memBad 0 far runS = false ∧ remoteBad far runS = false
      ∧ scratchCore who1 far runS = 0 ∧ (running runS).dev.core 0 = coreOf runS
      ∧ (∀ a ∈ as, a.2 % 4 = 0 ∧ a.2 + 4 ≤ (coreOf runS).scratchSize runS) ∧ (∀ a ∈ as, runS.poisoned a.2 4 = false) :=
  ⟨issues_of rfl rfl rfl rfl, by decide +kernel⟩

theorem witness_FenceAndCacheResult :
    let o := { memop with sem := 0, am := 0 }
    let g := { gm with u := [(0, 65536 + 4096 - 64)] }
    let r := { runM with groups := [(1, g)] }
    (running r).Issues who1 (coreOf r) r g ∧ thrIsLead who1.thr = false
      ∧ (∀ row ∈ fenceRows, ∀ scope ∈ [0, 7], (running r).dev.fenceWaits who1 g row.2 scope = [])
      ∧ gm.eff o.pr ≠ 0 ∧ copBad o r = false ∧ thrDrain r who1.thr (memVx o) = none ∧ g.todo = none
      ∧ (∀ a ∈ (threadsOf 0xF0).map fun t => (t, (g.addr o 64 t).toNat), a.2 < 2 ^ 57 ∧ a.2 % 64 = 0)
      ∧ (coreOf r).near = [] :=
  ⟨issues_of rfl rfl rfl rfl, by decide +kernel⟩

theorem witness_EmptyMaskOnlyAdvances :
    (running run0).Issues who1 (coreOf run0) run0 (grp 13 0xF0) ∧ thrIsLead who1.thr = false ∧ (grp 13 0xF0).eff never = 0
    ∧ (grp 13 0xF0).todo = none
    ∧ (∀ row ∈ loadRows, memBad row.2 { memop with sem := BitVec.ofNat 3 row.2 } run0 = false)
    ∧ (∀ row ∈ storeRows, ∃ sem : BitVec 3, row.bad { memop with sem := sem } run0 = false
        ∧ thrDrain run0 who1.thr (row.regs memop ++ memVx memop) = none)
    ∧ remoteBad memop run0 = false ∧ thrDrain run0 who1.thr (memRegs memop ++ memVx memop) = none
    ∧ (∀ row ∈ atomicRows, ∃ size : BitVec 3, ∃ vr : Byte,
        let o := { memop with fn := BitVec.ofNat 5 row.2, sem := 0, size := size, vr := vr }
        o.fn.toNat % 16 = row.2 ∧ atomBad o run0 false = false
          ∧ thrDrain run0 who1.thr ((if row.2 = 10 then memRegs o ++ (memRegs o).map (· + (memRegs o).length) else memRegs o) ++ memVx o)
              = none) :=
  ⟨issues1, by decide +kernel⟩

/-! ### Witnesses: control -/

def cop (a b : BitVec 24) : COp := { pr := always, offa := a, offb := b }
def part0 : Pred := { ps := 0, pn := false }
def entry (pend : Mask) : StackEntry := { saved := 0xF0, reconv := 13, pendTarget := 10, pendMask := pend }
/-- Thread 4 in p0, u1 holding the last word of the code, two entries on the stack. -/
def gC : Grp := { grp 13 0xF0 with p := [(0, 0x10)], u := [(1, 13)], stack := [entry 0x10, entry 0] }
def runC (g : Grp) : Run := { run0 with groups := [(1, g)] }

theorem issuesC {g : Grp} (ha : g.sched = .active) (hc : hdr0.inCode g.pc = true) :
    (running (runC g)).Issues who1 (coreOf (runC g)) (runC g) g := issues_of rfl rfl ha hc

/-- The first and the last word as targets; every thread, one thread and no thread in the effective mask; both kinds of entry. -/
theorem witness_ControlTransferResult :
    (running (runC gC)).Issues who1 (coreOf (runC gC)) (runC gC) gC ∧ thrIsLead who1.thr = false
    ∧ gC.eff never = 0 ∧ gC.eff part0 ≠ 0 ∧ gC.eff part0 ≠ gC.active ∧ gC.eff always = gC.active
    ∧ (gC.pc : Int) + (-3 : BitVec 24).toInt = 10 ∧ hdr0.inCode 10 = true ∧ (gC.pc : Int) + (0 : BitVec 24).toInt = 13
    ∧ hdr0.inCode 13 = true ∧ hdr0.inCode (gC.ureg 1).toNat = true ∧ gC.active &&& ~~~(gC.eff always) = 0
    ∧ gC.active &&& ~~~(gC.eff part0) ≠ 0 ∧ gC.stack.length < hdr0.maxDiverge
    ∧ gC.stack = entry 0x10 :: [entry 0] ∧ (entry 0x10).pendMask ≠ 0 ∧ hdr0.inCode (entry 0x10).pendTarget = true
    ∧ (entry 0).pendMask = 0 ∧ hdr0.inCode (entry 0).reconv = true :=
  ⟨issuesC rfl rfl, by decide +kernel⟩

/-- A full stack, an empty one, and targets one word before and after the code. -/
theorem witness_ControlErrors :
    (let g := { gC with stack := List.replicate 32 (entry 0) }
     (running (runC g)).Issues who1 (coreOf (runC g)) (runC g) g ∧ g.eff part0 ≠ 0 ∧ g.active &&& ~~~(g.eff part0) ≠ 0
       ∧ hdr0.maxDiverge ≤ g.stack.length)
    ∧ (grp 13 0xF0).stack = [] ∧ (grp 13 0xF0).eff always ≠ 0
    ∧ hdr0.inCode (13 + (1 : BitVec 24).toInt).toNat = false ∧ hdr0.inCode (13 + (-4 : BitVec 24).toInt).toNat = false
    ∧ (13 : Int) + (-14 : BitVec 24).toInt < 0 ∧ hdr0.inCode ({ gC with u := [(1, 14)] }.ureg 1).toNat = false :=
  ⟨⟨issuesC rfl rfl, by decide +kernel⟩, by decide +kernel⟩

/-- One thread of four exits, the last threads exit, the only active thread exits above either kind of entry; a whole group and a part of one at a barrier; a barrier all wait at. -/
theorem witness_ExitAndBarrierResult :
    (let g := { gC with pc := 12 }
     (running (runC g)).Issues who1 (coreOf (runC g)) (runC g) g ∧ g.eff part0 &&& g.live ≠ 0
       ∧ g.active &&& ~~~(g.eff part0 &&& g.live) ≠ 0 ∧ g.live &&& ~~~(g.eff part0 &&& g.live) ≠ 0 ∧ hdr0.inCode (g.pc + 1) = true
       ∧ g.live &&& ~~~(g.eff always &&& g.live) = 0
       ∧ g.eff always = g.live ∧ g.eff part0 ≠ g.live ∧ g.eff part0 ≠ 0 ∧ g.eff never = 0 ∧ (runC g).barNear = false
       ∧ thrIsLead who1.thr = false)
    ∧ (let g := { gC with active := 0x10 }
       let keep := ~~~(g.eff part0 &&& g.live)
       (running (runC g)).Issues who1 (coreOf (runC g)) (runC g) g ∧ g.eff part0 &&& g.live ≠ 0 ∧ g.active &&& keep = 0
         ∧ (entry 0x30).pendMask &&& keep &&& g.live ≠ 0 ∧ hdr0.inCode (entry 0x30).pendTarget = true
         ∧ (entry 0x10).pendMask &&& keep = 0 ∧ (entry 0x10).saved &&& keep &&& g.live ≠ 0 ∧ hdr0.inCode (entry 0x10).reconv = true)
    ∧ (let r := { run0 with groups := [(0, { grp 10 1 with sched := .exited }), (63, { grp 13 0xF0 with sched := .pendingWait (.barrier 15) })] }
       (running r).RunsOn 0 (coreOf r) r ∧ r.cores = [0] ∧ r.barNear = false ∧ (∃ x ∈ r.groups, x.2.sched ≠ .exited)
         ∧ (∀ x ∈ r.groups, x.2.sched = .exited ∨ x.2.sched = .pendingWait (.barrier 15))) :=
  ⟨⟨issuesC rfl rfl, by decide +kernel⟩, ⟨issuesC rfl rfl, by decide +kernel⟩,
   ⟨⟨rfl, by simp [running, onDev, coreOf, Dev.core, Dev.setCore], rfl⟩, by decide +kernel⟩⟩

/-- The last slot of a ring of two, a slot-sized fill, a fill that has all its bytes, one that is full and one that will never be made. -/
theorem witness_RingResult :
    (let f : Fill := { num := 0, va := 0, rowBytes := 64, rows := 1, stride := 0, bytes := [], arrived := false, poisoned := false }
     let x := { ring0 with fills := [f] }
     let g := { Grp.lead 12 with u := [(0, 2 ^ 57 - 64), (1, 0x10040)] }
     let r := { run0 with rings := [x], leads := [(0, g)] }
     (running r).Issues whoL (coreOf r) r g ∧ thrIsLead whoL.thr = true ∧ (0 < r.hdr.rings.length) ∧ g.eff always ≠ 0
       ∧ r.rings[0]? = some x ∧ rfillError x (2 ^ 57 - 64) 0x10040 = none ∧ x.fills.length < x.slots
       ∧ (x.fills.countP fun f => !f.arrived) < 8 ∧ (running r).dev.fillMisses whoL = false)
    ∧ (let f : Fill := { num := 0, va := 0, rowBytes := 16, rows := 1, stride := 0, bytes := List.replicate 16 7, arrived := false,
                         poisoned := false }
       let x := { ring0 with fills := [f] }
       let r := { run0 with rings := [x] }
       (running r).RunsOn 0 (coreOf r) r ∧ (coreOf r).stopped = false ∧ r.rings[0]? = some x ∧ x.fills = [f] ∧ f.arrived = false
         ∧ f.bytes.length = f.size ∧ (running r).dev.fillAway 0 0 0 = false)
    ∧ (let f : Fill := { num := 0, va := 0, rowBytes := 16, rows := 1, stride := 0, bytes := [], arrived := true, poisoned := false }
       let x := { ring0 with fills := [f] }
       let r := { run0 with rings := [x] }
       let r1 := r.releaseHeld who0.thr (grp 10 (BitVec.allOnes 64)) 0
       (running r).Issues who0 (coreOf r) r (grp 10 (BitVec.allOnes 64)) ∧ thrIsLead who0.thr = false ∧ thrIndex who0.thr < x.consumers
         ∧ (r1.rings[0]?.map fun x => x.full 0) = some true ∧ (r1.thr who0.thr).isSome)
    ∧ (let r := { run0 with rings := [{ ring0 with next := 0 }], leads := [(0, { Grp.lead 12 with sched := .exited })] }
       let r1 := r.releaseHeld who0.thr (grp 10 (BitVec.allOnes 64)) 0
       (running r).Issues who0 (coreOf r) r (grp 10 (BitVec.allOnes 64)) ∧ r1.neverFilled 0 0 = true
         ∧ (r1.rings[0]?.map fun x => x.full 0) = some false) :=
  ⟨⟨issues_of rfl rfl rfl rfl, by decide +kernel⟩,
   ⟨⟨rfl, by simp [running, onDev, coreOf, Dev.core, Dev.setCore], rfl⟩, by decide +kernel⟩,
   ⟨issues_of rfl rfl rfl rfl, by decide +kernel⟩, ⟨issues_of rfl rfl rfl rfl, by decide +kernel⟩⟩

/-- The largest near cache that scratch leaves room for, and a monitor record at the last line of the output. -/
theorem witness_SystemInstructionResult :
    (let r := { run0 with hdr := { hdr0 with scratchBytes := 524288 - 15 * 32768 } }
     (running r).Issues who1 (coreOf r) r (grp 13 0xF0) ∧ (grp 13 0xF0).eff always ≠ 0
       ∧ 15 * 32768 + r.spill + r.hdr.scratchBytes ≤ 524288 ∧ (coreOf r).near.length ≤ 512 * 15)
    ∧ (∀ row ∈ statfRows,
        let g := { gm with u := [(0, 65536 + 4096 - 64 * ((row.2.1 gm).length / 64))] }
        let bs := row.2.1 g
        let as := (threadsOf (BitVec.ofNat 64 (2 ^ (bs.length / 64) - 1))).map fun i => (i, (g.ureg 0).toNat + 64 * i)
        let d := (mapped runM 2 0).dev
        let x := d.reach who1 runM 64 .write as
        let y := x.2.2.stores who1 runM false 64 (fun i => leNat ((bs.drop (64 * i)).take 64)) x.1 [] Made.start
        let z := y.2.2.lineWrites 0 (runM.rq 0) true y.1 y.2.1
        runM.statDrain who1.thr = none ∧ g.todo = none ∧ d.precheck runM true 64 64 (as.map (·.2)) = none ∧ x.2.1 = none ∧ y.2.1.halt = none ∧ z.1.halt = none
          ∧ (z.2.core 0).run.isSome = true) :=
  ⟨⟨issues_of rfl rfl rfl rfl, by decide +kernel⟩, by decide +kernel⟩

/-- The last group waits for what has happened and for what has not; a ready group beside seven active ones, and eight active ones; a
KERNEL of two troupes whose first has ended. -/
def gWait (why : Why) : Grp := { grp 13 0xF0 with sched := .pendingWait why }
def runW (n : Nat) : Run :=
  { run0 with groups := ((List.range n).map fun i => (i, grp 10 1)) ++ [(61, { grp 10 1 with sched := .pendingReady }), (62, gWait .resolved),
      (63, gWait (.array [3]))] }
def job2 : KernelJob :=
  { kva := 0, hdr := hdr0, unit := 1, stream := 0, threads := 64, seed := 0, seq := 0, args := [], troupes := 2, next := 1, ended := 0,
    units := [[0]] }
def cmdK : Cmd := { Cmd.held 4 [] with st := .running, body := .kernel job2, engines := [{ eng := .core 0, order := .none, acked := false }] }
def kernelDev : Dev :=
  ((Dev.reset.setCore 0 { Core.built with
    run := some { run0 with groups := [(0, { grp 10 1 with sched := .exited })], leads := [] } }).setQueue 3
    { Queue.initial with st := .active, part := 1, ctx := 5, cmds := [cmdK] }).set fFlrSiteStatState siteRunning 0

theorem witness_SchedulingResult :
    ((running (runW 7)).RunsOn 0 (coreOf (runW 7)) (runW 7) ∧ (coreOf (runW 7)).stopped = false
      ∧ smapGet? (runW 7).groups 62 = some (gWait .resolved) ∧ smapGet? (runW 7).groups 63 = some (gWait (.array [3]))
      ∧ (running (runW 7)).dev.resolved 0 (runW 7) 62 (gWait .resolved) .resolved = true
      ∧ (running (runW 7)).dev.resolved 0 (runW 7) 63 (gWait (.array [3])) (.array [3]) = false
      ∧ ((runW 7).groups.countP fun x => x.2.sched = .active) < 8
      ∧ (earliest (fun g => g.sched = .pendingReady) (runW 7).groups).map (·.1) = some 61
      ∧ 8 ≤ ((runW 8).groups.countP fun x => x.2.sched = .active))
    ∧ (kernelDev.halted = false ∧ (kernelDev.kernelOn 0).map (fun x => (x.1, x.2.1.slot, x.2.2.2)) = some (3, 4, [0])
      ∧ ((kernelDev.reapTroupes 3 4).kernelOn 0).map (fun x => (x.2.2.1.next, x.2.2.1.troupes, x.2.2.2)) = some (1, 2, [0])
      ∧ ((kernelDev.reapTroupes 3 4).core 0).run = none ∧ ((kernelDev.reapTroupes 3 4).core 0).takesGroups = true
      ∧ (kernelDev.reapTroupes 3 4).tileUp 0 = true) :=
  ⟨⟨⟨rfl, by simp [running, onDev, coreOf, Dev.core, Dev.setCore], rfl⟩, by decide +kernel⟩, by decide +kernel⟩

/-- The last lane after the first, with the core running; a second column, and a row. -/
theorem witness_ResidueFailureResult :
    (let s := onDev (Dev.reset.setCore 0 { coreOf run0 with lanesFailed := [0] })
     s.dev.halted = false ∧ 16 ∉ (s.dev.core 0).lanesFailed ∧ (s.dev.core 0).run.isSome = true ∧ (s.dev.core 0).lanesFailed ≠ []
       ∧ (s.dev.core 0).laneSpareLost = false)
    ∧ (let x := { ArrayHw.good with failedCols := [0] }
       let s := onDev (Dev.reset.setCore 0 { coreOf run0 with arrayHw := [.good, .good, .good, x] })
       (s.dev.core 0).arrayHw[3]? = some x ∧ x.fail (.column 32) ≠ x ∧ x.fail (.row 31) ≠ x ∧ x.spareLost = false ∧ x.rowFailed = false) := by
  decide +kernel

/-! ### Witnesses: coherence -/

/-- Tokens for partition 1 and for the provider at every home. -/
def fed (d : Dev) : Dev :=
  d.setTempo { d.tempo with budgets := (List.range 13).foldl (fun m h => smapPut (smapPut m (64 * h + 1) 99) (64 * h + 48) 99) [] }

/-- The request of an agent, and whether its home takes it. -/
def asked (d : Dev) (a n : Nat) (kind : AgentReq) : Option Dev :=
  (d.setAline a n { d.aline a n with req := some kind }).accepts (d.home (64 * n)) (d.agentRq a n)
def takes (d : Dev) (a n : Nat) (kind : AgentReq) : Bool := (asked d a n kind).isSome

theorem requests_of {d : Dev} {a n : Nat} {kind : AgentReq}
    (h : (mayCache a n = true ∧ d.reaches a = true ∧ d.knowsDead (d.home (64 * n)) a = false
      ∧ (d.aline a n).st = (if kind = .claimOwn then .s else .i) ∧ (d.aline a n).req = none ∧ (d.aline a n).leaving = false)
      ∧ d.agentAsks a n = false ∧ (d.agentFull a n = false ∨ d.agentWays a = 0) ∧ d.backsOff (d.home (64 * n)) (agentNum a) = false
      ∧ d.firstTxn n = none ∧ n ∉ d.coh.suspect) :
    d.Requests a n kind (asked d a n kind) :=
  ⟨h.1.1, h.1.2.1, h.1.2.2.1, h.1.2.2.2.1, .inl h.1.2.2.2.2.1, h.1.2.2.2.2.2, h.2.1, h.2.2.1, h.2.2.2.1, h.2.2.2.2.1, h.2.2.2.2.2, rfl⟩

theorem goodLine {d : Dev} {n : Nat} (h : d.backed (64 * n) = true ∧ d.isPoisoned n = false ∧ n ∉ d.hbm.bad ∧ n ∉ d.hbm.weak) :
    d.GoodLine n := ⟨h.1, h.2.1, h.2.2.1, h.2.2.2⟩

/-- Some device satisfies P where a request is taken. -/
theorem taken_of {d : Dev} {a n : Nat} {kind : AgentReq} (h : d.Requests a n kind (asked d a n kind)) (ht : takes d a n kind = true) :
    ∃ d1, d.Requests a n kind (some d1) := by
  rcases h' : asked d a n kind with _ | x
  · simp [takes, h'] at ht
  · exact ⟨x, h' ▸ h⟩

theorem refused_of {d : Dev} {a n : Nat} {kind : AgentReq} (h : d.Requests a n kind (asked d a n kind)) (ht : takes d a n kind = false) :
    d.Requests a n kind none := by
  rcases h' : asked d a n kind with _ | x
  · exact h' ▸ h
  · simp [takes, h'] at ht

/-- The link UP: a companion without an allowance, and with one of 8 ways. -/
def fed0 : Dev := fed ((Dev.reset.set fUlkStatState 2).set fUlkStatWays 8)
def fedNone : Dev := fed (Dev.reset.set fUlkStatState 2)
def sharer (st : LState) : Dev := fed0.setTag 12 0 st
def holder (st : LState) : Dev := (fed0.setAline 13 0 { ALine.none with st := .s }).setTag 13 0 .s |>.setTag 12 0 st
def nack0 (v : Nat) : Dev := (Dev.reset.set fUlkStatState 2).set fShcHomeCtlNackMode v (Dev.reset.home 0)

/-- The first line of HBM: no other agent, with and without an allowance; one that shares it, one that has it modified; taken, and turned away
in both modes. A copy that leaves, to backed memory and to none; a snoop that waits and one that is answered. -/
theorem witness_RequestAndSnoopResult_requests :
    (∀ d ∈ [fed0, fedNone], ∀ k ∈ [AgentReq.rdShared, .rdOwn],
      (∃ d1, d.Requests 13 0 k (some d1)) ∧ d.GoodLine 0 ∧ ∀ b < 14, d.tag b 0 = .i)
    ∧ ((∃ d1, (sharer .s).Requests 13 0 .rdShared (some d1)) ∧ (∀ b < 14, b ≠ 13 → (sharer .s).tag b 0 = .i ∨ (sharer .s).tag b 0 = .s)
      ∧ (sharer .s).tag 12 0 = .s)
    ∧ ((∃ d1, (holder .i).Requests 13 0 .claimOwn (some d1)) ∧ (holder .i).tag 13 0 = .s ∧ (∀ b < 14, b ≠ 13 → (holder .i).tag b 0 = .i))
    ∧ ((holder .i).setTag 13 0 .i).tag 13 0 ≠ .s := by
  refine ⟨?_, ⟨taken_of (requests_of (by decide +kernel)) (by decide +kernel), by decide +kernel⟩,
    ⟨taken_of (requests_of (by decide +kernel)) (by decide +kernel), by decide +kernel⟩, by decide +kernel⟩
  intro d hd k hk
  simp only [List.mem_cons, List.not_mem_nil, or_false] at hd hk
  rcases hd with rfl | rfl <;> rcases hk with rfl | rfl <;>
    exact ⟨taken_of (requests_of (by decide +kernel)) (by decide +kernel), goodLine (by decide +kernel), by decide +kernel⟩

theorem witness_RequestAndSnoopResult_turned :
    ((∃ d1, (sharer .m).Requests 13 0 .rdShared (some d1)) ∧ (∃ d1, (sharer .e).Requests 13 0 .rdOwn (some d1))
      ∧ (∃ d1, (holder .s).Requests 13 0 .claimOwn (some d1))
      ∧ ((List.range 14).filter fun b => b ≠ 13 ∧ (sharer .m).knowsDead ((sharer .m).home 0) b = false
          ∧ ((sharer .m).tag b 0 = .e ∨ (sharer .m).tag b 0 = .m)) = [12])
    ∧ (∀ v < 2, (nack0 v).Requests 13 0 .rdOwn none ∧ (nack0 v).get fShcHomeCtlNackMode ((nack0 v).home 0) = v
        ∧ ((nack0 v).home 0, agentNum 13) ∉ (nack0 v).coh.reservations) := by
  refine ⟨⟨taken_of (requests_of (by decide +kernel)) (by decide +kernel), taken_of (requests_of (by decide +kernel)) (by decide +kernel),
    taken_of (requests_of (by decide +kernel)) (by decide +kernel), by decide +kernel⟩, ?_⟩
  intro v hv
  have : v = 0 ∨ v = 1 := by omega
  rcases this with rfl | rfl <;>
    exact ⟨refused_of (requests_of (by decide +kernel)) (by decide +kernel), by decide +kernel, by decide +kernel⟩

theorem witness_RequestAndSnoopResult_snoops :
    (∀ st ∈ [LState.e, .m], let d := fed0.setAline 13 0 { ALine.none with st := st, leaving := true }
      (d.aline 13 0).leaving = true ∧ (d.aline 13 0).st = st ∧ d.firstTxn 0 = none ∧ d.reaches 13 = true ∧ d.knowsDead (d.home 0) 13 = false
        ∧ d.backed 0 = true)
    ∧ Dev.reset.backed (765 * (gib / 2)) = false
    ∧ (∀ row ∈ snoopRows, ∀ x ∈ [{ ALine.none with st := .m, leaving := true }, { ALine.none with st := .m, hold := true },
        { ALine.none with st := .m }, { ALine.none with st := .i }],
        let d := (fed0.setAline 13 0 x).sendCoh (.snp 0 13 row.2)
        .snp 0 13 row.2 ∈ d.coh.msgs ∧ d.dead 13 = false ∧ d.grantComing 13 0 = false) := by
  refine ⟨?_, ?_, ?_⟩ <;> decide +kernel

/-- The last response that a read for ownership waits for, the last data, a grant of E and one of M. -/
theorem witness_responses (d : Dev) (m : CohMsg) (h : d.coh.msgs = [m]) :
    (∀ a n st owes, m = .resp n a st owes false → d.OnlyResp a n st owes)
    ∧ (∀ a n x bad, m = .toHome n a x bad → d.OnlyHomeData a n x bad)
    ∧ (∀ a n st wd x bad, m = .grant n a st wd x bad → d.OnlyGrant a n st wd x bad)
    ∧ (∀ num n x bad, m = .toRequester n num x bad → d.OnlyAnswer num n x bad)
    ∧ (∀ who n k r, m = .redirect n who k r → d.OnlyRedirect who n k r) := by
  refine ⟨?_, ?_, ?_, ?_, ?_⟩
  · rintro a n st owes rfl; simp [Dev.OnlyResp, h]
  · rintro a n x bad rfl; simp [Dev.OnlyHomeData, h]
  · rintro a n st wd x bad rfl; simp [Dev.OnlyGrant, h]
  · rintro num n x bad rfl; simp [Dev.OnlyAnswer, h]
  · rintro who n k r rfl; simp [Dev.OnlyRedirect, h]

def oneMsg (m : CohMsg) : Dev := fed0.sendCoh m
def waiting (awaiting owed : List Nat) (m : CohMsg) : Dev :=
  (oneMsg m).setCoh { (oneMsg m).coh with
    txns := [{ home := 0, line := 0, req := .rdOwn 13 (fed0.agentRq 13 0), started := true, awaiting := awaiting, owed := owed }] }

theorem witness_RequestAndSnoopResult_answers :
    (let d := waiting [12] [] (.resp 0 12 .i false false)
     d.OnlyResp 12 0 .i false ∧ d.knowsDead (d.home 0) 12 = false
       ∧ (d.firstTxn 0).map (fun t => (t.started, t.awaiting, t.owed)) = some (true, [12], [])
       ∧ (d.coh.txns.countP fun t => t.line = 0) = 1)
    ∧ (let d := waiting [12] [] (.resp 0 12 .i true false); d.OnlyResp 12 0 .i true)
    ∧ (let d := waiting [] [12] (.toHome 0 12 5 false); d.OnlyHomeData 12 0 5 false ∧ (d.firstTxn 0).map (·.owed) = some [12])
    ∧ (let d := oneMsg (.grant 0 13 .e true 7 false)
       d.OnlyGrant 13 0 .e true 7 false ∧ (d.aline 13 0).snoop = none ∧ d.dead 13 = false ∧ d.coh.waits = [])
    ∧ ((oneMsg (.grant 0 13 .e true 7 false)).set fShcAgentDeadDead 0x2000).dead 13 = true :=
  ⟨⟨(witness_responses _ _ rfl).1 _ _ _ _ rfl, by decide +kernel⟩, (witness_responses _ _ rfl).1 _ _ _ _ rfl,
   ⟨(witness_responses _ _ rfl).2.1 _ _ _ _ rfl, by decide +kernel⟩,
   ⟨(witness_responses _ _ rfl).2.2.1 _ _ _ _ _ _ rfl, by decide +kernel⟩, by decide +kernel⟩

def rq1 : Requester := { num := 0xFFF, part := some 1, ctx := some 5, quad := 3 }
def lpLine : Nat := lpBase / 64
/-- Hart 95 runs. -/
def hostDev (d : Dev) : Dev := d.setHost { d.host with running := [95] }

/-- The host's agent with no copy, a shared, an exclusive, a modified, a poisoned and a held one; the companion's; an LPDDR5X line. -/
theorem witness_AgentLocalResult :
    (∀ a ∈ [12, 13], ∀ st ∈ [LState.i, .s, .e, .m], let d := (hostDev fed0).setAline a 0 { ALine.none with st := st }
      (d.aline a 0).st = st ∧ (d.aline a 0).leaving = false ∧ (d.aline a 0).req = none ∧ d.localMay a 95 = true ∧ mayCache a 0 = true
        ∧ d.agentFull a 0 = false ∧ isLp 0 = false ∧ (d.aline a 0).poison = false)
    ∧ fed0.localMay 12 95 = false
    ∧ ((hostDev fed0).setAline 12 0 { ALine.none with st := .s, poison := true }).aline 12 0 = { ALine.none with st := .s, poison := true }
    ∧ (let d := hostDev fed0
       isLp (64 * lpLine) = true ∧ d.localMay 12 95 = true ∧ (d.aline 12 lpLine).leaving = false ∧ (d.accepts 12 (d.hartRq 95)).isSome = true
         ∧ d.firstTxn lpLine = none ∧ lpLine ∉ d.coh.suspect ∧ d.backed (64 * lpLine) = true ∧ d.isPoisoned lpLine = false
         ∧ lpLine ∉ d.hbm.bad ∧ lpLine ∉ d.hbm.weak ∧ ∀ b < 14, d.tag b lpLine = .i)
    ∧ (∀ x ∈ [{ ALine.none with st := .m, hold := true, used := true }, { ALine.none with st := .m, hold := true, used := true, snoop := some true },
        { ALine.none with st := .m, hold := true }], (fed0.setAline 12 0 x).aline 12 0 = x)
    ∧ ((fed0.setAline 12 0 { ALine.none with st := .e, leaving := true }).aline 12 0).leaving = true := by
  refine ⟨?_, ?_, ?_, ?_, ?_, ?_⟩ <;> decide +kernel

/-- The first HBM line for a stream, good, uncorrectable without a replica and with one; the first LPDDR5X line at the bridge that holds it. -/
theorem witness_StreamRequestResult :
    (isHbm 0 = true ∧ (fed0.accepts (fed0.home 0) (streamRq rq1)).isSome = true
      ∧ fed0.firstTxn 0 = none ∧ 0 ∉ fed0.coh.suspect ∧ fed0.GoodLine 0 ∧ (∀ b < 14, fed0.tag b 0 = .i)
      ∧ fed0.earlierRefused 0 0xFFF (.strRd rq1 .clean) = false ∧ fed0.earlierRefused 0 0xFFF (.strWr rq1 1 1) = false
      ∧ fed0.earlierRefused 0 0xFFF (.strAtom rq1 63 0 true 1 0) = false)
    ∧ (let d := (fed0.set fHbmReplPairValid 1 63).set fHbmReplPairReplica 384 63
       fed0.replica 0 = none ∧ d.replica 0 = some (384 * gib / 64)
         ∧ (d.homeRead (streamRq rq1) 0 .uncorrectable).1.2 = true ∧ ((d.homeRead (streamRq rq1) 0 .uncorrectable).2.replica 0).isSome = true
         ∧ (fed0.homeRead (streamRq rq1) 0 .clean).1.2 = false)
    ∧ (∀ st ∈ [LState.i, .s, .e, .m], let d := fed0.setAline (lpBridge 3 lpBase) lpLine { ALine.none with st := st }
       isLp (64 * lpLine) = true ∧ d.backed (64 * lpLine) = true ∧ (d.aline (lpBridge 3 (64 * lpLine)) lpLine).st = st ∧ d.coh.waits = []
         ∧ d.dead (lpBridge 3 (64 * lpLine)) = false ∧ d.agentFull (lpBridge 3 (64 * lpLine)) lpLine = false
         ∧ (d.aline (lpBridge 3 (64 * lpLine)) lpLine).req = none ∧ (d.aline (lpBridge 3 (64 * lpLine)) lpLine).poison = false)
    ∧ (oneMsg (.toRequester 0 5 1 false)).OnlyAnswer 5 0 1 false
    ∧ (oneMsg (.redirect 0 (.requester 5) 9 (.strRd rq1 .clean))).OnlyRedirect (.requester 5) 0 9 (.strRd rq1 .clean)
    ∧ (oneMsg (.redirect 0 (.agent 13) 9 (.rdShared 13 (fed0.agentRq 13 0)))).OnlyRedirect (.agent 13) 0 9 (.rdShared 13 (fed0.agentRq 13 0))
    ∧ (let m : Remote := { id := 8, part := 1, q := 3, slot := 4, who := some who1, lane := 4, win := { module_ := 1, window := 2, key := 3 },
                           off := 0, va := 0, port := none, kind := .read 4 63 4 false, tries := 0, flight := .sent, msg := 0, payload := [] }
       let r := { run0 with groups := [(1, { grp 13 0xF0 with away := [(8, [63])] })] }
       let d := (running r).dev.setReel { (running r).dev.reel with remotes := [m] }
       d.remote? 8 = some m ∧ (d.core 0).run = some r ∧ r.q = m.q ∧ r.slot = m.slot
         ∧ r.thr who1.thr = some { grp 13 0xF0 with away := [(8, [63])] }) :=
  ⟨by refine ⟨?_, ?_, ?_, ?_, goodLine ?_, ?_, ?_, ?_, ?_⟩ <;> decide +kernel, by decide +kernel, by decide +kernel,
   (witness_responses _ _ rfl).2.2.2.1 _ _ _ _ rfl,
   (witness_responses _ _ rfl).2.2.2.2 _ _ _ _ rfl, (witness_responses _ _ rfl).2.2.2.2 _ _ _ _ rfl, by decide +kernel⟩

/-- Turned away in both modes, a stream and an agent, and taken; a late agent; a dead agent. -/
theorem witness_HomeControlResult :
    (∀ who ∈ [Sender.requester 0xFFF, .agent 13], ∀ v < 2, let x : Asker := { who := who, part := some 1 }
      (nack0 v).turnsAway ((nack0 v).home 0) x = true ∧ (nack0 v).get fShcHomeCtlNackMode ((nack0 v).home 0) = v
        ∧ ((nack0 v).home 0, senderNum who) ∉ (nack0 v).coh.reservations ∧ fed0.turnsAway 0 x = false)
    ∧ (let d := waiting [12] [] (.snp 0 12 true)
       (d.firstTxn 0).map (fun t => (t.home, t.started, t.awaiting ++ t.owed)) = some (0, true, [12]))
    ∧ ((Dev.reset.set fShcAgentDeadDead 0x2000).dead 13 = true) := by decide +kernel

/-! ### Witnesses: Tempo and upkeep -/

/-- A beat of every purpose at every instance, remaps running. -/
def beaten : Dev :=
  ((List.range 13).foldl (fun d n => (((((d.set fTmpBeatsScrub 1 n).set fTmpBeatsRemap 1 n).set fTmpBeatsShadow 1 n).set fTmpBeatsCarve 1
    n).set fTmpBeatsSnoop 1 n).set fShcHomeCtlNackMode 0 n) Dev.reset).set fMntBootStatStage 5

def remap0 : Remap := { stack := 23, unit := 7, reserve := 4095, copied := 1023, ppr := false }
def shadow0 : Shadow := { granule := 1, old := 0, new := 65536, copying := true, next := 1023 }
def shadowDev : Dev :=
  beaten.setQueue 16383 { Queue.initial with cmds := [{ cmd0 with
    outputs := [{ va := 65536, len := 65536, mode := .cow, table := 0, rangePage := 16, shadows := [shadow0] }] }] }
def scrub0 : Scrub := { inst := 0, unit := 0, part := 1, next := 16777215 }

/-- A waiting TMP_BEATS word; the first HBM and the first LPDDR5X line, good, poisoned, poisoned in a replica and uncorrectable; a line without
a beat and one that is not backed; the last line of a remap; the last line of a shadow granule; the last line of a carved-out unit. -/
theorem witness_TempoAndUpkeepResult :
    smapGet? ({ Dev.reset.tempo with beats := [(12, 5)] }).beats 12 = some 5
    ∧ ({ Dev.reset.tempo with snapshot := some (1, 2, 3) } : Tempo).snapshot.isSome = true
    ∧ (∀ n ∈ [1024, lpLine], beaten.backed (64 * n) = true ∧ 0 < beaten.beatLeft (beaten.home (64 * n)) actScrub
        ∧ beaten.lineBusy n = false ∧ n ∉ beaten.hbm.bad ∧ n ∉ beaten.hbm.weak ∧ beaten.isPoisoned n = false)
    ∧ (let d := (({ beaten with poison := [1024] } : Dev).set fHbmReplPairValid 1 0).set fHbmReplPairReplica 0 0
       d.isPoisoned 1024 = true ∧ d.isReplica 1024 = true ∧ beaten.isReplica 1024 = false)
    ∧ (∀ site ∈ [0, 55, 56, 68], beatLines (calibrator site) ≤ (beaten.set fTmpBeatsProm 1 (calibrator site)).beatLeft (calibrator site) actProm
        ∧ (Dev.reset.set fTmpBeatsProm 0 (calibrator site)).beatLeft (calibrator site) actProm < beatLines (calibrator site))
    ∧ isHbm (64 * 1024) = true ∧ (beaten.hbmPlace (64 * 1024)).2 ≠ 0 ∧ isHbm (64 * lpLine) = false
    ∧ beaten.backed (765 * (gib / 2)) = false
    ∧ (let d := beaten.setHbm { beaten.hbm with remaps := [remap0] }
       d.remapsRun (stackBridge 23) = true
         ∧ d.hbm.remaps.find? (fun r => r.stack = 23 ∧ r.copied < 1024) = some remap0 ∧ d.coh.txns = [])
    ∧ ((shadowDev.cmd? 16383 4).map (fun c => (c.outputs.flatMap Output.shadows).find? (fun y => y.granule = 1 ∧ y.copying = true))
        = some (some shadow0)
      ∧ shadow0.next = 1023
      ∧ (∀ n ∈ [1023, 2047], shadowDev.lineBusy n = false ∧ shadowDev.copiesHeld n (n = 2047) = false)
      ∧ (shadowDev.backed (64 * 1023) = true ∧ shadowDev.isPoisoned 1023 = false ∧ 1023 ∉ shadowDev.hbm.bad ∧ 1023 ∉ shadowDev.hbm.weak)
      ∧ ((shadowDev.spend (shadowDev.home (64 * 1023)) actShadow 1).bind
          fun d => d.spend (shadowDev.home (64 * 2047)) actShadow 1).isSome = true
      ∧ (∀ g < 14, (shadowDev.aline g 1023).st ≠ .e ∧ (shadowDev.aline g 1023).st ≠ .m) ∧ 1023 ∉ shadowDev.coh.suspect)
    ∧ (let d := beaten.setTempo { beaten.tempo with scrubs := [scrub0] }
       beatLines 0 ≤ d.beatLeft 0 actCarve ∧ d.tempo.scrubs.find? (fun y => y.inst = 0) = some scrub0 ∧ d.coh.txns = [])
    ∧ (beatLines 12 ≤ beaten.beatLeft 12 actSnoop ∧ (Dev.reset.set fTmpBeatsSnoop 0 12).beatLeft 12 actSnoop < beatLines 12 ∧ isMemory (64 * lpLine) = true ∧ beaten.home (64 * lpLine) = 12) := by decide +kernel

/-! ### Witnesses: translation and windows -/

/-- Partition 1, ACTIVE, with context 4095 alone, whose descriptor points at one leaf node with one LINEAR entry for page 16; a fault queue of
two records; a window table with one entry. -/
def walkDev : Dev :=
  let d := fed0.set fPrtStatState partActive 1
  let d := (((d.set fClrCtxRangeFirst 4095 1).set fClrCtxRangeCount 1 1).set fClrCtxTabBase 1 1).set fXltFqCtlLog2Size 1 1
  let d := ((d.pokeWord 0x1040 2).pokeWord 0x2000 0x101).poke 0x2020 (leBytes 8 16 ++ leBytes 8 1 ++ leBytes 8 3 ++ leBytes 8 0x1C)
  ((d.set fXltFqBaseBase 4 1).set fXltWinBaseEnable 1).setReel { d.reel with winCache := [(0xFFFF, [3, 1, 0x7FFF03C1, 0])] }

def strm0 (a : Access) : Strm := { q := 3, slot := 4, slotRead := false, who := none, access := a, fill := false, va := 65536 }
def walk0 (page : Nat) (a : Access) : Walk := { tile := 48, ctx := 4095, page := page, streams := [strm0 a], fault := none }
def walks0 (w : Walk) : Dev := { walkDev with walks := [w] }
def rec0 : FaultRec := { num := 7, ctx := 4095, cause := causeNotMapped, span := 17, spanPages := 1, tracked := true }
def wait0 : FaultWait :=
  { ctx := 4095, cause := causeNotMapped, span := 17, spanPages := 1, va := 0x11000, access := 0, fill := false, q := 3, seen := 0, time := 0,
    stalled := none }


/-- The last page of an entry, and the first page past it; a translation that answers a walk and a fault that coalesces; a waiting fault with
the queue empty and full; a pending record and none; CONS at PROD and past it. -/
theorem witness_TranslationResult :
    ((walkDev.peek (walkDev.ctxAt 1 4095 + 64) 8).2 = false
      ∧ natBitsAt (leNat (walkDev.peek (walkDev.ctxAt 1 4095 + 64) 8).1) 0 40 * 4096 = 0x2000
      ∧ (walkDev.peek 0x2000 8).2 = false ∧ natBitsAt (leNat (walkDev.peek 0x2000 8).1) 0 8 = 1
      ∧ (leNat (walkDev.peek 0x2000 8).1).testBit 8 = true
      ∧ (∀ page ∈ [16, 17], lastSlot (fun i => natBitsAt (walkDev.peekWord (0x2000 + 32 * i)) 0 45) page 1 = some 1)
      ∧ nodeLines 0x2000 1 (some 1) = [0x80] ∧ (walkDev.peek (64 * 0x80) 64).2 = false ∧ natBitsAt (walkDev.peekWord 0x2020) 0 45 = 16 ∧ natBitsAt (walkDev.peekWord 0x2028) 0 45 = 1
      ∧ natBitsAt (walkDev.peekWord 0x2038) 0 2 = 0 ∧ isMemory (3 * 4096) = true ∧ isHbm (3 * 4096) = true
      ∧ natBitsAt (walkDev.peekWord 0x2030) 0 40 = 3)
    ∧ (∀ page ∈ [16, 17], ∀ a ∈ [Access.read, .atomic],
        let d := walks0 (walk0 page a)
        d.walks.find? (fun w => w.tile = 48 ∧ w.ctx = 4095 ∧ w.page = page ∧ w.fault = none ∧ d.walking w = true) = some (walk0 page a)
          ∧ d.ctxPart 4095 = some 1
          ∧ (d.walkReads (d.walkRq 48 1 4095) (d.walk 1 4095 page).2.eraseDups).isSome = true
          ∧ (match (d.walk 1 4095 page).1 with
             | .entry x => page = 16 && (walk0 page a).streams.all fun st => x.grants st.access
             | .fault c => page = 17 && c = causeNotMapped) = true)
    ∧ ((walkDev.pokeWord 0x2000 0).walk 1 4095 16).1 = .fault causeTable
    ∧ (let d := walkDev.setPart 1 { walkDev.part 1 with waitFaults := [wait0], pendFaults := [rec0] }
       (d.part 1).waitFaults = wait0 :: [] ∧ d.fqUsed 1 + 2 ≤ d.fqSize 1
         ∧ (let d1 := d.set fXltFqProdProd 1 1; d1.fqSize 1 < d1.fqUsed 1 + 2)
         ∧ d.pendingRecord 1 7 = some rec0 ∧ d.pendingRecord 1 6 = none
         ∧ (0 + 2 ^ 32 - d.fqCons 1) % 2 ^ 32 ≤ d.fqUsed 1 ∧ d.fqUsed 1 < (1 + 2 ^ 32 - d.fqCons 1) % 2 ^ 32) := by
  decide +kernel

def remoteOf (kind : RemoteKind) : Remote :=
  { id := 8, part := 1, q := 3, slot := 4, who := none, lane := 0, win := { module_ := 1, window := 2, key := 3 }, off := 0, va := 0, port := none,
    kind := kind, tries := 0, flight := .sent, msg := reelFence, payload := [0, 1] }
def fence0 : FenceOp := .absolute (.local_ 0) 1 3 4

/-- A device with a piece that waits to be added, admitted through an entry since replaced or not. -/
def waitingPiece (stale : Bool) : Dev :=
  let piece : Segment := { rank := 1, shard := 0, pa := 0, bytes := [1], window := 7, stale := stale }
  walkDev.setReel { walkDev.reel with arrivals := [{ bridge := 11, group := 2, epoch := 1, arrived := [], finished := [], waiting := [piece] }] }

/-- The last bytes of the window of all modules; one byte past it; requests that wait for an acknowledgement, one that is refused. -/
theorem witness_WindowResult :
    (∀ p ∈ [(true, false, false), (false, true, false), (false, false, true)],
      (walkDev.admitRemote 0xFFE 0xFFFF 4088 0 p.1 p.2.1 p.2.2).1 = some (16376, 1))
    ∧ (walkDev.admitRemote 0xFFE 0xFFFF 4096 0 false true false).1 = none
    ∧ (let rq : Rq := receiverRq 1
       (walkDev.pocBytes rq 16376 8).isSome = true ∧ (walkDev.pocStore rq 16376 [1]).isSome = true
         ∧ (walkDev.pocAtomic rq 16376 0 true 1 0).isSome = true
         ∧ ((walkDev.setTempo { walkDev.tempo with budgets := [] }).pocStore rq 16376 [1]) = none
         ∧ ((walkDev.setTempo { walkDev.tempo with budgets := [] }).pocBytes rq 16376 8) = none)
    ∧ (∀ k ∈ [RemoteKind.write true, .fence fence0, .segment],
        (walkDev.setReel { walkDev.reel with remotes := [remoteOf k] }).remote? 8 = some (remoteOf k))
    ∧ ((∀ a ∈ (waitingPiece false).reel.arrivals, ∀ x ∈ a.waiting, x.stale = false)
      ∧ (∃ a ∈ (waitingPiece true).reel.arrivals, ∃ x ∈ a.waiting, x.stale = true))
    ∧ (let d := (walkDev.setQueue 3 { Queue.initial with part := 1, cmds := [cmd0] })
       d.cmd? 3 4 = some cmd0 ∧ cmd0.st = .running ∧ cmd0.sent = none ∧ cmd0.kill = none ∧ (d.part 1).waitFaults = []
         ∧ d.fqUsed 1 + 2 ≤ d.fqSize 1) := by decide +kernel

/-! ### Witnesses: the Caller -/

/-- Partition 1, ACTIVE, with tile 0 running, queues 16382 and 16383 and contexts 5 to 7; context 5 has one handle and a queue descriptor
for queue 16382; page 16 is cached at the tile and at the Caller. -/
def callDev : Dev :=
  let d := ((fed Dev.reset).set fPrtStatState partActive 1).set fPrtTilesTiles 1 1
  let d := ((d.set fClrQRangeFirst 16382 1).set fClrQRangeCount 2 1).set fClrQtabBase 6 1
  let d := (((d.set fClrCtxRangeFirst 5 1).set fClrCtxRangeCount 3 1).set fClrCtxTabBase 1 1).set fXltFqCtlLog2Size 4 1
  let d := (d.set fFlrSiteStatState siteRunning 0).set fXltFqBaseBase 12 1
  let d := (d.poke 0x1000 (leBytes 8 8 ++ leBytes 8 (2 ^ 32 + 1))).poke 0x8000 (leBytes 8 65536 ++ leBytes 8 (2 ^ 48 + 4096 + 15 * 2 ^ 49))
  let d := d.poke 0x6000 (leBytes 8 (5 + 4 * 2 ^ 17 + 1 * 2 ^ 24) ++ leBytes 8 0 ++ leBytes 8 0 ++ leBytes 8 0xFFFFFFFF)
  { d with rcache := [(0, [ent0 0 1]), (48, [ent0 0 1])] }

def withCmd (c : Cmd) : Dev :=
  callDev.setQueue 16383 { Queue.initial with st := .active, part := 1, ctx := 5, cls := .copy, prio := 2, execTimeout := 1, waitTimeout := 1,
                                              head := 5, tail := 5, retired := 4, cmds := [c] }
def working (b : Body) : Cmd := { cmd0 with body := b }
def outs0 : List Output := cmd0.outputs
def job0 (n : Nat) : CollJob :=
  { src := 65536, dst := 65536, elements := 16, op := 0, dtype := 0, ordered := true, n := n, rank := 0, root := 0, group := 0, epoch := 1,
    staging := some 65536, members := List.replicate n { module_ := 0, dstWin := 0, stgWin := 0, key := 0 }, bridge := 0, own := 0, sent := 0,
    added := 0, combined := 0, spread := 0, done := false }
def swap0 : Rows := { va := 65536, rb := 8, rows := 1, stride := 0 }


/-- A KERNEL whose first troupe has ended; a FILL and a COPY of the last bytes of the output, and past it; a MARKER; a RANGE.SYNC of a span
with an output, without, and one whose pages are away; a reduction with and without its staged pieces. -/
theorem witness_CommandWorkResult :
    ((kernelDev.reapTroupes 3 4).runs? 3 4).isSome = true
    ∧ (let b := Body.fill 7 (65536 + 4088) 8 1 0 0
       let d := withCmd (working b)
       let pl := d.place (d.stream 0 16383 4) (65536 + 4088) 8 true
       d.runs? 16383 4 = some (working b) ∧ d.copyTile 16383 = some 0
         ∧ (working b).covers { va := 65536 + 4088, rb := 8, rows := 1, stride := 0 } = true
         ∧ (working b).covers { va := 65536 + 4089, rb := 8, rows := 1, stride := 0 } = false
         ∧ pl.1 = .at_ (.memory 4088)
         ∧ (Dev.pocStore (d.channelRq (d.stream 0 16383 4)) 4088 (fillBytes 7 (65536 + 4088) 8) pl.2).isSome = true)
    ∧ (let b := Body.copy 65536 (65536 + 4088) 8 1 0 0 0
       let d := withCmd (working b)
       let st := d.stream 0 16383 4
       let rq : Rq := d.channelRq st
       let p1 := d.place st (65536 + 4088) 8 true
       let p2 := p1.2.place st 65536 8 false
       d.runs? 16383 4 = some (working b) ∧ d.fromWindow st 65536 = false
         ∧ Rows.meets swap0 { swap0 with va := 65536 + 4088 } = false
         ∧ p1.1 = .at_ (.memory 4088) ∧ p2.1 = .at_ (.memory 0)
         ∧ ((Dev.pocRead rq 0 p2.2).map fun x => (x.1.2, (Dev.pocStore rq 4088 (leBytes 8 (lineField x.1.1 0 8)) x.2).isSome)) = some (false, true))
    ∧ (let b := Body.marker (some (65536 + 4088)) 7 false
       let d := withCmd (working b)
       let pl := d.place (d.stream callerTile 16383 4) (65536 + 4088) 8 true
       d.runs? 16383 4 = some (working b) ∧ pl.1 = .at_ (.memory 4088)
         ∧ (Dev.pocStore (d.callerRq 1 5) 4088 (leBytes 8 7) pl.2).isSome = true)
    ∧ (∀ page ∈ [16, 17], let b := Body.rangeSync 0 page 1 none false false
       let d := (withCmd (working b)).setQueue 16382 { Queue.initial with ctx := 5, cmds := [{ cmd0 with
         dispatched := 1, outputs := [{ va := 65536, len := 4096, mode := .cow, table := 0, rangePage := 16, shadows := [] }] }] }
       d.runs? 16383 4 = some (working b) ∧ (d.queue 16383).part = 1 ∧ d.syncRefused 5 page 1 = decide (page = 16)
         ∧ d.spanAway 5 page 1 = false)
    ∧ (∀ n ∈ [1, 2], let d := withCmd (working (.collective (job0 n)))
       d.runs? 16383 4 = some (working (.collective (job0 n))) ∧ (job0 n).staging = some 65536 ∧ d.staged (job0 n) = decide (n = 1)) := by
  refine ⟨?_, ?_, ?_, ?_, ?_, ?_⟩ <;> decide +kernel

def busy1 : Dev := callDev.set fClrQctlStatBusy 1 1
def retired0 : Dev := withCmd { cmd0 with slot := 3 }

def noTokens (d : Dev) : Dev := d.setTempo { d.tempo with budgets := [] }
/-- The link UP, so that the companion's writes arrive. -/
def doorDev : Dev := (withCmd cmd0).set fUlkStatState 2

/-- A busy CLR_QCTL; a descriptor that is refused and one that is good, with and without tokens for its reads; a slot not read, one retired and
one in the queue; a doorbell in both states of a queue with its tags and others, TAIL at and past the ring; HEAD announced, on a page that is
cached, on one that is not, past 2^57 and through a window; a post that is refused and one that is made or waits. -/
theorem witness_QueueControlResult :
    busy1.get fClrQctlStatBusy 1 = 1 ∧ callDev.get fClrQctlStatBusy 1 = 0
    ∧ (callDev.takesOps 1 = true ∧ callDev.qIn 1 16382 = true ∧ callDev.qIn 1 16381 = false ∧ (callDev.queue 16382).st = .free
      ∧ Dev.reset.takesOps 1 = false)
    ∧ (∀ q ∈ [16382, 16383],
       let reads (d : Dev) := Dev.pocLines (d.callerRq 1 (d.createReads 1 q).1) (d.createReads 1 q).2 d
       (reads callDev).isSome = true ∧ reads (noTokens callDev) = none
         ∧ (reads callDev).map (fun x => (x.2.queueOf 1 q).isSome) = some (decide (q = 16382)))
    ∧ (let d := callDev.setQueue 16383 { Queue.initial with st := .stopped, part := 1, ctx := 5, head := 5 }
       d.qIn 1 16383 = true ∧ (d.queue 16383).st = .stopped ∧ (d.queue 16383).cmds = [] ∧ (d.queue 16383).part = 1)
    ∧ ((withCmd cmd0).takesOps 1 = true ∧ ((withCmd cmd0).queue 16383).wasRead 5 = false
      ∧ ((withCmd cmd0).queue 16383).wasRead 4 = true ∧ (withCmd cmd0).cmd? 16383 4 = some cmd0 ∧ retired0.cmd? 16383 4 = none)
    ∧ (let x := doorDev.queue 16383
       doorDev.partState x.part = partActive ∧ doorDev.tagsOf (.companion (some (1, 5))) = some (x.part, x.ctx)
         ∧ doorDev.tagsOf (.companion (some (1, 4))) ≠ some (x.part, x.ctx)
         ∧ doorDev.arrives (.companion (some (1, 5))) = true ∧ (withCmd cmd0).arrives (.companion (some (1, 5))) = false
         ∧ (doorDev.set fPrtStatState partDissolving 1).partState x.part ≠ partActive
         ∧ 2 ^ x.log2 < ((5 + 17 : W32) - x.head).toNat ∧ ((5 + 16 : W32) - x.head).toNat ≤ 2 ^ x.log2
         ∧ (x.tail - x.head).toNat ≤ ((5 + 16 : W32) - x.head).toNat ∧ x.head = x.tail)
    ∧ (let x : Queue := { Queue.initial with st := .active, part := 1, ctx := 5, ring := 65536, head := 15, tail := 16 }
       let d := callDev.setQueue 16383 x
       let va := x.ring + 128 * (x.head.toNat % 2 ^ x.log2)
       d.queue 16383 = x ∧ x.head ≠ x.tail ∧ (x.head - x.retired).toNat < 16 ∧ d.lookup callerTile 5 (va / 4096) .read = some (ent0 0 1)
         ∧ ((Dev.pocLines (d.callerRq 1 5) (linesOf ((ent0 0 1).phys va) 128) d).map fun x => x.1.map (·.2)) = some [false, false]
         ∧ d.partState x.part = partActive ∧ va < 2 ^ 57 ∧ (ent0 0 1).window = none
         ∧ (Dev.pocLines (d.callerRq 1 5) (linesOf ((ent0 0 1).phys va) 128) (noTokens d)) = none
         ∧ ({ d with rcache := [] } : Dev).lookup callerTile 5 (va / 4096) .read = none
         ∧ ({ d with rcache := [(48, [{ ent0 0 1 with window := some { module_ := 1, window := 2, key := 3 } }])] } : Dev).lookup callerTile 5
             (va / 4096) .read = some { ent0 0 1 with window := some { module_ := 1, window := 2, key := 3 } }
         ∧ 2 ^ 57 ≤ ({ x with ring := 2 ^ 57 } : Queue).ring
         ∧ (let y := { x with retired := (-1 : W32) }; 16 ≤ (y.head - y.retired).toNat))
    ∧ (walkDev.get fClrFencePostStatBusy 1 = 0 ∧ (walkDev.part 1).reinit = none ∧ walkDev.ctxIn 1 4095 = true ∧ walkDev.ctxIn 1 4094 = false
      ∧ walkDev.fenceOf 1 4095 (walkDev.get fClrFencePostVaVa 1 * 64) = none
      ∧ (let d := walkDev.set fClrFencePostVaVa (65536 / 64) 1
         d.fenceOf 1 4095 (d.get fClrFencePostVaVa 1 * 64) = some (.local_ 0x3000)
           ∧ (d.deliverFence 1 (.error (.local_ 0x3000) errProducerLost 0 0 true)).isSome = true
           ∧ (noTokens d).deliverFence 1 (.error (.local_ 0x3000) errProducerLost 0 0 true) = none))
    ∧ (callDev.partState 1 ≠ partFree ∧ callDev.partState 47 = partFree
      ∧ callDev.blockTaken 47 false 16381 1 = false ∧ callDev.blockTaken 47 true 8 4088 = false) := by
  refine ⟨?_, ?_, ?_, ?_, ?_, ?_, ?_, ?_, ?_, ?_⟩ <;> decide +kernel

def slotWords (ty : Nat) : List W64 := BitVec.ofNat 64 ty :: 0xFFFFFFFF :: 0 :: 0xFFFFFFFF :: List.replicate 12 0
def heldCmd (ty : Nat) : Cmd := { Cmd.held 4 (slotWords ty) with slot := 4 }
def signalCmd (st : CState) : Cmd := { Cmd.held 4 (slotWords 6) with st := st, body := .signal 65536 (.local_ 0) 7 }
def waitCmd (watch : Bool) : Cmd := { Cmd.held 4 (slotWords 5) with st := .waiting, watch := watch, body := .wait 65536 (.local_ 0) 0 }
def fillCmd (st : CState) : Cmd :=
  { Cmd.held 4 (slotWords 3) with
    st := st, body := .fill 0 65536 8 1 0 0, engines := [{ eng := .channel 0 0, order := .none, acked := false }] }

/-- Queue 16382 with the first command, queue 16383 with the second. -/
def rivals (p1 p2 : Nat) (c1 c2 : Cmd) : Dev :=
  let q (p : Nat) (ctx : Nat) (c : Cmd) : Queue :=
    { Queue.initial with st := .active, part := 1, ctx := ctx, cls := .copy, prio := p, head := 5, tail := 5, retired := 4, cmds := [c] }
  (((callDev.setQueue 16382 (q p1 5 c1)).setQueue 16383 (q p2 6 c2)).set fPrtSchedSlice 1 1).set fPrtSchedKillLimit 1 1

theorem witness_CommandLifeResult :
    (∀ ty ∈ [8, 63], let c1 := { heldCmd ty with st := .dispatch }
       let d := (withCmd (heldCmd ty)).putCmd 16383 c1
       let a := d.examine (d.queue 16383) c1
       (withCmd (heldCmd ty)).cmd? 16383 4 = some (heldCmd ty) ∧ (d.queue 16383).mayDispatch (heldCmd ty) = true ∧ a.2.2.2.misses = []
         ∧ (Dev.pocLines (d.callerRq 1 5) a.2.2.2.lines.eraseDups d).isSome = true
         ∧ a.2.2.2.code = (if ty = 8 then none else some errIllegal))
    ∧ (let d := withCmd (signalCmd .ready)
       d.stranded 16383 (signalCmd .ready) = false ∧ (d.queue 16383).mayRun (signalCmd .ready) = true
         ∧ d.grantable 16383 (signalCmd .ready) = [[.signalUnit 16383]] ∧ 0 < (signalCmd .ready).wants
         ∧ (d.queue 16383).mayRun (signalCmd .held) = false)
    ∧ (let c := { Cmd.held 4 [] with st := .ready, body := .kernel { job2 with unit := 0, hdr := { hdr0 with minArrays := 7 } } }
       ((withCmd c).set fMntBootStatStage 5).stranded 16383 c = true)
    ∧ (let c := { fillCmd .ready with engines := [] }
       (((withCmd c).set fMntBootStatStage 5).set fFlrSiteStatState siteWithdrawn 0).stranded 16383 c = true
         ∧ (((withCmd c).set fMntBootStatStage 5).set fFlrSiteStatState siteWithdrawn 0).engineSets 16383 c ≠ [])
    ∧ (let mine := { fillCmd .ready with engines := [] }
       let all : List EngineRef := (List.range 4).map fun i => { eng := .channel 0 i, order := .none, acked := false }
       let d := rivals 0 2 mine { fillCmd .running with engines := all }
       ((d.setQueue 16382 { d.queue 16382 with cls := .copy }).queue 16382).mayRun mine = true
         ∧ d.copyTile 16382 = some 0 ∧ d.grantable 16382 mine = []
         ∧ (d.engineSets 16382 mine).any (d.freeAfter []) = false)
    ∧ (let mine := { fillCmd .running with
         engines := (List.range 4).map fun i => ({ eng := .channel 0 i, order := .none, acked := false } : EngineRef) }
       let next := { fillCmd .ready with engines := [] }
       let d := rivals 2 2 mine next
       d.get fPrtSchedSlice 1 ≠ 0 ∧ d.preemptible 16382 mine = true ∧ (16383, next) ∈ d.allCmds ∧ (d.queue 16383).ctx ≠ (d.queue 16382).ctx
         ∧ (d.queue 16383).mayRun next = true ∧ d.grantable 16383 next = [] ∧ (∃ e ∈ (d.engineSets 16383 next).flatten, ∃ r ∈ mine.engines, r.eng = e))
    ∧ (∀ o ∈ [Order.none, .drain, .kill],
        let c := { fillCmd .running with engines := [{ eng := .channel 0 3, order := o, acked := false }] }
        (withCmd c).cmd? 16383 4 = some c ∧ c.engines[0]? = some { eng := .channel 0 3, order := o, acked := false }
          ∧ ((withCmd c).part 1).qop = none ∧ (withCmd c).partState 1 ≠ partDissolving ∧ ((withCmd c).queue 16383).execTimeout ≠ 0 ∧ (c.st = .running ∨ c.st = .committing))
    ∧ (∀ watch : Bool, let d := withCmd (waitCmd watch)
        d.cmd? 16383 4 = some (waitCmd watch) ∧ (waitCmd watch).sent = none ∧ (d.peekLine 0).2 = false
          ∧ ((withCmd (waitCmd watch)).queue 16383).waitTimeout ≠ 0 ∧ (waitCmd watch).kill = none)
    ∧ ((withCmd (signalCmd .running)).remotesDone 16383 4 = true ∧ (∀ e ∈ (signalCmd .running).engines, engineCore e.eng = none))
    ∧ (let c := { fillCmd .running with sent := some (.ends 0x0101) }; ∀ e ∈ c.engines, e.order ≠ .drain)
    ∧ (let d := (withCmd cmd0).setPart 1 { (withCmd cmd0).part 1 with qop := some (.abort 16383 4 false) }
       d.cmd? 16383 4 = some cmd0 ∧ cmd0.sent = none ∧ (d.part 1).qop = some (.abort 16383 4 false) ∧ (d.queue 16383).st = .active)
    ∧ (let d := callDev.setPart 47 { callDev.part 47 with signals := [fence0], errors := [.error (.local_ 64) 1 3 4 false] }
       (d.part 47).signals = fence0 :: [] ∧ fence0.place = .local_ 0 ∧ (d.part 0).signals = [] ∧ (d.part 0).errors = []) := by
  refine ⟨?_, ?_, ?_, ?_, ?_, ?_, ?_, ?_, ?_, ?_, ?_, ?_⟩ <;> decide +kernel

/-- A commit with a completion fence and a kill of a command without engines; a fence at its largest value and one that would overflow. -/
theorem witness_CommitResult :
    (let c := { signalCmd .committing with fence := some (.local_ 64) }
     (withCmd c).cmd? 16383 4 = some c ∧ ((withCmd c).queue 16383).part < 48 ∧ c.kill = none)
    ∧ (let c := { cmd0 with sent := some (.ends 0x0103) }; c.engines = [] ∧ c.st ≠ .committing)
    ∧ (lineWord 0 0 + (2 ^ 64 - 1) < 2 ^ 64 ∧ 2 ^ 64 ≤ lineWord 1 0 + (2 ^ 64 - 1) ∧ (lineWord 1 1).testBit 16 = false
      ∧ (lineWord (BitVec.ofNat 512 (2 ^ 80)) 1).testBit 16 = true) := by decide +kernel


/-- A KERNEL whose header's page is not cached; cached, with and without tokens for its reads. -/
def kernelCmd : Cmd := { Cmd.held 4 (BitVec.ofNat 64 tyKernel :: 0xFFFFFFFF :: 0 :: 0 :: List.replicate 12 0) with slot := 4 }
def kernelSlot (cached : Bool) : Dev :=
  let d := withCmd kernelCmd
  let d := d.setQueue 16383 { d.queue 16383 with cls := .compute }
  if cached then d else { d with rcache := [] }
def examined (d : Dev) : Chk := (d.examine (d.queue 16383) (d.enterDispatch (d.queue 16383) kernelCmd)).2.2.2

theorem witness_CommandLifeResult_dispatch :
    (kernelSlot false).cmd? 16383 4 = some kernelCmd ∧ ((kernelSlot false).queue 16383).mayDispatch kernelCmd = true
    ∧ (examined (kernelSlot false)).misses ≠ [] ∧ (examined (kernelSlot false)).poison = false
    ∧ (examined (kernelSlot true)).misses = [] ∧ (examined (kernelSlot true)).code = some errIllegal
    ∧ (Dev.pocLines ((kernelSlot true).callerRq 1 5) (examined (kernelSlot true)).lines.eraseDups (kernelSlot true)).isSome = true
    ∧ Dev.pocLines ((kernelSlot true).callerRq 1 5) (examined (kernelSlot true)).lines.eraseDups (noTokens (kernelSlot true)) = none := by
  decide +kernel
/-! ### Witnesses: partitions, host complex, Reel -/

/-- Partition 47 FREE, its fault queue's base written, with the last tile; and the same with a context block of partition 1. -/
def freeDev : Dev := { (callDev.set fPrtTilesTiles (2 ^ 47) 47) with written := [regKey .xltFqBase 47 0] }

theorem witness_PartitionResult :
    (let d := freeDev
     d.get fPrtStatBusy 47 = 0 ∧ d.partState 47 = 0 ∧ d.partState 1 = 1 ∧ d.get fFlrTestCtlFullUnlock = 0 ∧ d.actResult 47 = 0
       ∧ (callDev.actResult 47 = prtInvalid)
       ∧ ((d.set fClrCtxRangeFirst 7 47).set fClrCtxRangeCount 1 47).actResult 47 = prtConflict
       ∧ (d.set fFlrTestCtlFullUnlock 1).get fFlrTestCtlFullUnlock = 1)
    ∧ ((callDev.set fPrtStatBusy 1 1).get fPrtStatBusy 1 = 1)
    ∧ (let d := callDev.setWord .prtHbmUnits 1 0 1
       d.partQueues 1 = [] ∧ (d.part 1).reinit = none ∧ d.units 1 ≠ [] ∧ (∀ x ∈ d.queues, x.2.part < 48))
    ∧ ((freeDev.setPart 47 { freeDev.part 47 with reinit := some { cause := 5, site := 63, tiles := [], dissolving := false, since := 0 } }).part
        47).reinit ≠ none
    ∧ (freeDev.get fPrtAttestStatBusy 1 = 0 ∧ (freeDev.set fMntIdStatIdValid 1).get fMntIdStatIdValid = 1
      ∧ (freeDev.set fPrtAttestStatBusy 1 1).get fPrtAttestStatBusy 1 = 1) := by refine ⟨?_, ?_, ?_, ?_, ?_⟩ <;> decide +kernel

/-- The exchange window on, slot 16383 handed over for a snapshot. -/
def xwDev : Dev :=
  let d := (Dev.reset.setWord .ulkXwBase 0 0 (2 ^ 63)).setWord .ulkXwFlags 0 0 (2 ^ 17 * 512)
  d.pokeWord (d.xwFlagAt 16383) (2 + 256 * kindSnapshot)

/-- A pair in two quadrants and one in a quadrant; a block free to change and one that is not; one slot for 20 contexts, a count of 0, a window
that ends too early; a snapshot that is not sampled yet, and one that is, with its slot as it was taken and with its flag changed. -/
def snapDev (sampled : Option (List Byte)) : Dev :=
  let d := xwDev.xwTakeAll (snapAt 16383 1)
  d.setTempo { d.tempo with snapshot := some (16383, 4095, 1), sampled := sampled }

theorem witness_ProviderMapResult :
    (let v : W64 := BitVec.ofNat 64 (2 ^ 63 + 2 ^ 16 * 384 + 381)
     let w : W64 := BitVec.ofNat 64 (2 ^ 63 + 2 ^ 16 * 383 + 381)
     v.toNat.testBit 63 = true ∧ Dev.reset.pairOk (natBitsAt v.toNat 0 11) (natBitsAt v.toNat 16 11) = true
       ∧ w.toNat.testBit 63 = true ∧ Dev.reset.pairOk (natBitsAt w.toNat 0 11) (natBitsAt w.toNat 16 11) = false)
    ∧ (Dev.reset.blockFree 126 = true ∧ (callDev.setWord .prtHbmUnits 1 0 1).blockFree 0 = false)
    ∧ (let v : W64 := BitVec.ofNat 64 (2 ^ 63 + 2 ^ 26 + 4095 * 2 ^ 14 + 16383)
       let wr := xwDev.setWord .mtrSnapCtl 0 0 (regWrite .mtrSnapCtl false (xwDev.word .mtrSnapCtl 0 0) v.toNat)
       v.toNat.testBit 63 = true ∧ xwDev.get fMtrSnapStatBusy = 0 ∧ regWriteReserved .mtrSnapCtl v.toNat = false
         ∧ wr.get fMtrSnapCtlCount = 1 ∧ wr.get fMtrSnapCtlFirstCtx = 4095 ∧ wr.get fMtrSnapCtlFirstSlot = 16383 ∧ snapSlots 1 = 1
         ∧ xwDev.snapOwned 16383 1 = true ∧ xwDev.snapOwned 16382 1 = false ∧ regWriteReserved .mtrSnapCtl (2 ^ 63) = true
         ∧ xwDev.tempo.snapshot = none ∧ (xwDev.set fMtrSnapStatBusy 1).get fMtrSnapStatBusy = 1)
    ∧ (xwDev.tempo.snapshot = none ∧ (snapDev none).tempo.snapshot = some (16383, 4095, 1) ∧ (snapDev none).tempo.sampled = none
      ∧ (let d := snapDev (some [1])
         d.tempo.snapshot = some (16383, 4095, 1) ∧ d.tempo.sampled = some [1] ∧ (snapAt 16383 1).all d.xwKept = true
           ∧ (snapAt 16383 1).all (d.pokeWord (d.xwFlagAt 16383) 2).xwKept = false)) := by
  refine ⟨?_, ?_, ?_, ?_⟩ <;> decide +kernel

/-- The last hart of partition 1 runs, and none else. -/
def hartDev : Dev := (callDev.setWord .prtHcores1 1 0 (2 ^ 31)).setHost { callDev.host with running := [95] }

theorem witness_HostHartResult :
    hartDev.host.running.contains 95 = true ∧ hartDev.host.running.contains 0 = false ∧ hartDev.hartPart 95 = some 1
    ∧ isDevice 0xFF00000000000 = true ∧ isPage 0xFD00000000000 = true ∧ hartDev.hartPart 95 ≠ some 0
    ∧ isMemory 0 = true ∧ isMemory 0x20000000000 = true := by decide +kernel

/-- A register that any source reaches, with a hart that runs and one that does not, the link UP and down; addresses without a register; a
hart of the partition and one of none. -/
theorem witness_RegisterWriteResult :
    regAt (regAddr .prtSched 1 0) = some (.prtSched, 1, 0) ∧ Reg.prtSched ∉ ownRuleRegs
    ∧ regAddr .prtSched 1 0 % 8 = 0 ∧ hartDev.hartMay 95 (regAddr .prtSched 1 0) true = true
    ∧ regAt (0xFD00000000000 + 65528) = none ∧ isPage (0xFD00000000000 + 65528) = true
    ∧ isDevice (0xFF00000000000) = true ∧ regAt 0xFF00000011800 = none ∧ regAt 0xFF0000FFFFFF8 = none ∧ isDevice 0xFF0000FFFFFF8 = true
    ∧ (callDev.set fUlkStatState 2).linkUp = true ∧ callDev.arrives .minuet = true ∧ hartDev.arrives (.hart 95) = true
    ∧ (callDev.set fUlkStatState 2).arrives (.companion none) = true ∧ callDev.arrives (.companion none) = false
    ∧ hartDev.arrives (.hart 0) = false ∧ hartDev.host.running.contains 95 = true
    ∧ regAt (regAddr .shcPfCtl 12 0) = some (.shcPfCtl, 12, 0) ∧ natBitsAt (95 * 4) 2 7 ∈ hartDev.hcores 1 ∧ natBitsAt (94 * 4) 2 7 ∉ hartDev.hcores 1
    ∧ natBitsAt (95 * 4 + 5 * 512 + 2047 * 4096) 9 3 < 6 ∧ natBitsAt (95 * 4 + 5 * 512 + 2047 * 4096) 12 11 ≠ 0 := by decide +kernel

/-- A link that is UP with two flits to acknowledge and one that waits; the flit that is expected next has number 1023. -/
def upDev : Dev :=
  let d := callDev.set fUlkStatState 2
  d.setUlk { d.host.ulk with expect := 1023, acked := 1, next := 4,
                             buffer := [(2, .completion), (3, .completion)], held := [.completion] }

/-- A flit that is expected and another; an acknowledgement of one that waits and of one that does not; a link UP and one that trains; a
register's word, an address outside the two spaces; an allowance at its bound and past it. -/
theorem witness_UlitumResult :
    (upDev.host.ulk.expect = 1023 ∧ upDev.host.ulk.expect ≠ 1022 ∧ upDev.host.ulk.buffer.any (fun x => x.1 = 3) = true
      ∧ upDev.host.ulk.buffer.any (fun x => x.1 = 1) = false ∧ upDev.host.ulk.held ≠ [] ∧ upDev.linkUp = true)
    ∧ upDev.linkUp = true ∧ callDev.linkUp = false ∧ (callDev.set fUlkStatState 1).get fUlkStatState = 1
    ∧ xwDev.xwOn = true ∧ callDev.xwOn = false
    ∧ regAt (regAddr .mntFwStat 0 0) = some (.mntFwStat, 0, 0) ∧ Reg.mntFwStat ∉ [Reg.tmpStat, .shcHomeStat, .shfTestOut, .prtNearPfMask]
    ∧ regAddr .mntFwStat 0 0 % 8 = 0 ∧ isPage 0 = false ∧ isDevice 0 = false
    ∧ (32 ≤ 32 ∧ 2 ^ 14 * 32 * 64 ≤ 33554432) ∧ 33554432 < 2 ^ 15 * 32 * 64 ∧ upDev.partState 1 = 1 ∧ upDev.partState 2 ≠ 1 := by
  decide +kernel

/-- A port UP on four wavelengths loses its last; one that trains with lost wavelengths. -/
def portDev : Dev :=
  ((Dev.reset.set fMntBootStatStage 5).set fRelPortStatState portUp 15).set fRelPortStatDataWl 4 15 |>.set fRelPortStatWlMap 0b1111 15

theorem witness_ReelPortResult :
    (portDev.get fRelPortStatWlMap 15).testBit 3 = true ∧ (portDev.get fRelPortStatWlMap 15).testBit 9 = false
    ∧ (portDev.get fCutStatStanding).testBit 4 = false ∧ portDev.get fRelPortStatState 15 = 2 ∧ portDev.get fRelPortStatDataWl 15 - 1 < 4
    ∧ portDev.get fMntBootStatStage = 5 ∧ Dev.reset.get fMntBootStatStage ≠ 4 ∧ Dev.reset.get fMntBootStatStage ≠ 5
    ∧ smapGet portDev.reel.wlCuts 15 [] = []
    ∧ smapGet (portDev.setReel { portDev.reel with wlCuts := [(15, [8, 9])] }).reel.wlCuts 15 [] = [8, 9] := by decide +kernel

def lostSignal (tries : Nat) (port : Option Nat) : Remote := { remoteOf (.fence fence0) with tries := tries, port := port }
def noBudget (d : Dev) : Dev := d.setTempo { d.tempo with budgets := [] }
def routed : Dev := portDev.poke 2 (leBytes 2 0x8000)

/-- Arriving signals that are granted and refused; a signal without a route at its 99th and 100th try, and with one; a segment that reduces
and one that stores, whose last byte is granted and refused, with the arrival table free and full. -/
theorem witness_ReelArrivalResult :
    (walkDev.admitRemote 7 0xFFFF 4032 0 false true true = (some (16320, 1), walkDev)
      ∧ walkDev.admitRemote 7 0xFFFF 4096 0 false true true = (none, walkDev) ∧ walkDev.minuet.logSlots = [])
    ∧ (∀ tries ∈ [98, 99], (Dev.reset.setReel { Dev.reset.reel with remotes := [lostSignal tries none] }).remote? 8
          = some (lostSignal tries none) ∧ Dev.reset.routePort 1 3 2 = none)
    ∧ ((lostSignal 0 (some 15)).port ≠ none ∧ routed.routePort 1 3 2 = some 15)
    ∧ (∀ add : Bool, walkDev.admitRemote 7 0xFFFF 4095 0 false (!add) add = (some (16383, 1), walkDev))
    ∧ (walkDev.reclaimArrivals.openArrival 11 1 1).isSome = true
    ∧ ((walkDev.setReel { walkDev.reel with arrivals := (List.range 256).map fun i =>
        { bridge := 11, group := 2, epoch := i, arrived := [], waiting := [], finished := [] } }).openArrival 11 1 1) = none
    ∧ (∀ add : Bool, walkDev.admitRemote 7 0xFFFF 4096 0 false (!add) add = (none, walkDev))
    ∧ (Dev.pocStore (receiverRq 1) 16383 [1] walkDev).isSome = true ∧ (Dev.pocStore (receiverRq 1) 16383 [1] (noBudget walkDev)).isNone = true
    ∧ (walkDev.applyFence (receiverRq 1) 1 (fenceOpOf (.local_ 16320) (.absolute 1)) 16320).isSome = true
    ∧ ((noBudget walkDev).applyFence (receiverRq 1) 1 (fenceOpOf (.local_ 16320) (.absolute 1)) 16320).isNone = true := by
  refine ⟨?_, ?_, ?_, ?_, ?_, ?_, ?_, ?_, ?_, ?_, ?_⟩ <;> decide +kernel

/-! ### Witnesses: floor, test access, faults -/

/-- Edge 0, of sites 0 and 56, UP between running dies; group 47 of AB has its spare in place, group 46 its spare's failed wire waiting. -/
def edgeDev : Dev :=
  let d := (Dev.reset.set fFlrChsStatState 2 0).set fFlrSiteStatState siteRunning 0 |>.set fFlrSiteStatState siteRunning 56
  d.setEdgeDir 0 false { EdgeDir.good with spared := [(47, 1504)], replays := 4 }
def trainDev : Dev :=
  let d := edgeDev.set fFlrChsStatState 1 0
  d.setEdgeDir 0 false { d.edgeDir 0 false with training := true }

/-- A flit, awaited and not, on an edge that is not UP and on one that is, with four replays behind it and fewer; the end of a retrain, with the last wire of
group 46 and of group 47 failed, with and without a standing approval. -/
theorem witness_ChasseResult :
    Dev.reset.halted = false ∧ Dev.reset.get fFlrChsStatState 119 = 0 ∧ edgeDev.get fFlrChsStatState 0 = 2
    ∧ (edgeDev.edgeDir 0 (dirBa .ab)).expect = (0 : BitVec 10).toNat ∧ (edgeDev.edgeDir 0 (dirBa .ab)).expect ≠ (1023 : BitVec 10).toNat
    ∧ (edgeDev.edgeDir 0 (dirBa .ab)).replays = 4 ∧ (edgeDev.edgeDir 0 (dirBa .ba)).replays < 4
    ∧ trainDev.get fFlrChsStatState 0 = 1 ∧ (trainDev.edgeDir 0 false).training = true ∧ (trainDev.edgeDir 0 false).approved = []
    ∧ 1503 < 1536 ∧ 1503 / 32 ∉ (trainDev.edgeDir 0 false).removed ∧ (∀ u ∈ (trainDev.edgeDir 0 false).spared, u.1 ≠ 1503 / 32)
    ∧ (∀ u ∈ (trainDev.edgeDir 0 false).waiting, u.1 ≠ 1503 / 32) ∧ (trainDev.get fCutStatStanding).testBit 2 = false
    ∧ ((trainDev.set fCutStatStanding 4).get fCutStatStanding).testBit 2 = true ∧ trainDev.minuet.declined = []
    ∧ 1535 / 32 = 47 ∧ (47, 1504) ∈ (trainDev.edgeDir 0 false).spared ∧ (47, 1535) ∉ (trainDev.edgeDir 0 false).spared
    ∧ (47, 1535) ∉ (trainDev.edgeDir 0 false).waiting
    ∧ siteRunning = trainDev.siteState (edgeEnds 0).1 ∧ trainDev.siteState (edgeEnds 0).2 = 2 := by decide +kernel

/-- Bank 3 with laser 9 lit and laser 8 not; full service with site 55 in stand-alone test, site 68 running, REF absent. -/
def floorDev : Dev :=
  let d := ((edgeDev.set fFlrLaserStatLit 0x23F 3).set fFlrLaserStatDataMap 0x23F 3).set fMntBootStatStage 5
  let d := (d.set fFlrSiteStatState siteStandalone 55).set fFlrSiteStatState siteRunning 68
  d.setFloor { d.floor with refLost := true }

theorem witness_FloorLightResult :
    floorDev.halted = false ∧ (floorDev.get fFlrLaserStatLit 3).testBit 9 = true ∧ (floorDev.get fFlrLaserStatLit 3).testBit 8 = false
    ∧ (floorDev.get fCutStatStanding).testBit 3 = false
    ∧ Dev.reset.get fMntBootStatStage ≠ 4 ∧ Dev.reset.get fMntBootStatStage ≠ 5 ∧ floorDev.get fMntBootStatStage = 5
    ∧ (floorDev.set fMntBootStatStage 4).get fMntBootStatStage = 4
    ∧ floorDev.siteState 55 = 3 ∧ floorDev.siteState 0 ≠ 3 ∧ floorDev.siteState 67 ≠ 3 ∧ floorDev.siteState 67 ≠ 2 ∧ floorDev.siteState 56 = 2
    ∧ floorDev.siteState 68 = 2 ∧ floorDev.floor.refLost = true ∧ edgeDev.floor.refLost = false ∧ floorDev.minuet.powerCycle = none := by
  decide +kernel

/-- A selected die of each kind in stand-alone test and out of it; the locks of FLR_TEST_CTL open and shut. -/
def testDev (n : Nat) : Dev := (Dev.reset.set fFlrTestCtlSelected n).set fFlrSiteStatState siteStandalone n
def loopDev : Dev := (testDev 68).setSite 68 { Site.initial with looping := true, loopback := 0x4000, before := 5 }

theorem witness_TestAccessResult :
    Dev.reset.get fFlrTestCtlFullUnlock = 0 ∧ (Dev.reset.set fFlrTestCtlFullUnlock 1).get fFlrTestCtlFullUnlock = 1
    ∧ Dev.reset.halted = false ∧ 69 ≤ Dev.reset.get fFlrTestCtlSelected ∧ Dev.reset.siteState 55 = 0
    ∧ (let d := Dev.reset.set fFlrTestCtlSiteUnlock 1
       d.get fFlrTestCtlSiteUnlock = 1 ∧ d.get fFlrTestCtlFullUnlock ≠ 1 ∧ (55 : Byte).toNat < 56 ∧ (56 : Byte).toNat < 69
         ∧ (69 : Byte).toNat = 69 ∧ (254 : Byte).toNat < 255 ∧ (255 : Byte).toNat = 255)
    ∧ (∀ n ∈ [0, 55, 56, 67, 68], (testDev n).get fFlrTestCtlSelected = n ∧ (testDev n).siteState n = 3)
    ∧ (Dev.reset.set fFlrTestCtlSelected 68).siteState 68 ≠ 3
    ∧ loopValid 68 0x578C = true ∧ (0x578C : W64).getLsbD 14 = true
    ∧ allSites.find? (fun k => (loopDev.site k).looping) = some 68 ∧ (∀ k < 69, (Dev.reset.site k).looping = false)
    ∧ (∃ p < 48, callDev.partState p ≠ 0) ∧ (∀ p < 48, Dev.reset.partState p = 0)
    ∧ (2 : W64).getLsbD 1 = true ∧ (1 : W64).getLsbD 1 = false
    ∧ (testDev 55).siteState 55 = 3 ∧ (loopDev.site 68).before ≤ 5 ∧ ((testDev 55).site 55).before ≤ 5 := by decide +kernel

/-- Tile 0 at site 0 runs for partition 1; site 12, the new site of a cut-in; hart 95 of partition 1. -/
def faultDev : Dev :=
  let d := hartDev.set fFlrSiteStatState siteReset 12
  d.setMinuet { d.minuet with tileCutins := [{ tile := 1, site := 12, entry := 0, stopped := false }] }

theorem witness_DieFaultResult :
    faultDev.halted = false ∧ (faultDev.minuet.tileCutins.any fun x => x.site = 12) = true
    ∧ (faultDev.minuet.tileCutins.any fun x => x.site = 0) = false ∧ faultDev.servesTile 0 = true ∧ faultDev.servesTile 55 = false
    ∧ faultDev.siteState 55 ≠ 3 ∧ faultDev.siteState 12 ≠ 2 ∧ faultDev.siteState 12 ≠ 4
    ∧ faultDev.get fFlrSiteStatRole 0 = 0 ∧ faultDev.siteState 0 = 2
    ∧ faultDev.tilePart (faultDev.get fFlrSiteStatLogicalTile 0) = some 1 ∧ faultDev.partState 1 = 1 ∧ (faultDev.part 1).reinit = none
    ∧ faultDev.host.running.contains 95 = true ∧ faultDev.host.running.contains 0 = false ∧ faultDev.hartPart 95 = some 1 := by
  decide +kernel

/-- A device in service with partition 47's last unit being scrubbed, its site numbers at and past 68; a dead agent 12. -/
def resetDev : Dev :=
  let d := (floorDev.set fShcAgentDeadDead 0x1000).setTempo { floorDev.tempo with scrubs := [⟨0, 1, 47, 5⟩] }
  d

theorem witness_ResetResult :
    resetDev.halted = false ∧ resetDev.get fMntBootStatStage ≠ 0 ∧ Dev.reset.get fMntBootStatStage = 0
    ∧ (47, 1) ∈ resetDev.formerUnits ∧ resetDev.unitDies 1 ≠ []
    ∧ resetDev.dead 12 = true ∧ (0x1000 : BitVec 14).toNat = 2 ^ 12
    ∧ (∀ i < 13, (0x2FFF : BitVec 14).getLsbD i = true → resetDev.dead i = false)
    ∧ (5 : BitVec 4).toNat = 5 ∧ 5 < (6 : BitVec 4).toNat ∧ (68 : BitVec 7).toNat < 69 ∧ (69 : BitVec 7).toNat = 69 := by decide +kernel
/-! ### Witnesses: Minuet, power, bring-up -/

/-- Slot n of the exchange window handed over with a KIND and a LENGTH. -/
def handed (d : Dev) (n kind len : Nat) : Dev := d.pokeWord (d.xwFlagAt n) (2 + 256 * kind + 65536 * len)

/-- Slot 16383 with a payload of the length asked for, slot 16382 for the log, 16381 for telemetry; a proposal for each kind, the last with the
identity 7; a remap entry of stack 23. -/
def mboxDev : Dev :=
  let d := handed (handed (handed xwDev 16383 kindPayload 104) 16382 kindLog 0) 16381 kindTelemetry 0
  let d := ((d.set fCutPropValid 1 31).set fCutPropId 7 31).set fCutPropKind 6 31
  let d := (d.set fCutPropValid 1 0).set fCutPropId 8 0
  let d := (d.set fPrtStatState partActive 47).set fMntNegStatEnabled 1 47
  d.setHbm { d.hbm with remaps := [{ stack := 23, unit := 4, reserve := 4095, copied := 0, ppr := false }] }

theorem witness_MailboxResult_slots :
    (mboxDev.set fMntMboxStatBusy 1).get fMntMboxStatBusy = 1 ∧ (onDev mboxDev).Asks
    ∧ (mboxDev.payload 16383 104).1.isSome = true ∧ (mboxDev.payload 16382 104).1 = none
    ∧ (∀ i < 13, mboxDev.beatsFit i (beatsWord i ((wordsOf ((mboxDev.payload 16383 104).1.getD []) 13).getD i 0)) = true)
    ∧ (let d := mboxDev.pokeWord (mboxDev.xwSlot 16383 + 96) (63 + 2 * 2 ^ 12)
       (d.payload 16383 104).1.isSome = true
         ∧ d.beatsFit 12 (beatsWord 12 ((wordsOf ((d.payload 16383 104).1.getD []) 13).getD 12 0)) = false)
    ∧ mboxDev.xwOffered 16382 3 = true ∧ mboxDev.xwOffered 16381 3 = false ∧ mboxDev.xwOffered 16381 4 = true ∧ mboxDev.xwOffered 16384 4 = false
    ∧ mboxDev.minuet.logHeld = [] := by refine ⟨?_, ⟨?_, ?_⟩, ?_, ?_, ?_, ?_⟩ <;> decide +kernel

theorem witness_MailboxResult_rest :
    (onDev mboxDev).Asks
    ∧ mboxDev.propEntry 9 = none ∧ mboxDev.propEntry 7 = some 31 ∧ mboxDev.get fCutPropState 31 = 0 ∧ mboxDev.get fCutPropKind 31 = 6
    ∧ mboxDev.propEntry 8 = some 0 ∧ mboxDev.get fCutPropState 0 = 0 ∧ mboxDev.get fCutPropKind 0 = 0
    ∧ (31 : BitVec 28).toNat < 32 ∧ 32 ≤ (32 : BitVec 28).toNat
    ∧ natBitsAt (24 : BitVec 28).toNat 0 5 = 24 ∧ natBitsAt (23 + 32 * 4095 : BitVec 28).toNat 0 5 < 24
    ∧ (∃ r ∈ mboxDev.hbm.remaps, r.stack = 23 ∧ r.reserve = natBitsAt (23 + 32 * 4095 : BitVec 28).toNat 5 12)
    ∧ (∀ r ∈ mboxDev.hbm.remaps, ¬(r.stack = 23 ∧ r.reserve = natBitsAt (23 + 32 * 4094 : BitVec 28).toNat 5 12))
    ∧ 48 ≤ natBitsAt (48 : BitVec 28).toNat 0 6 ∧ natBitsAt (47 : BitVec 28).toNat 0 6 < 48
    ∧ (mboxDev.payload 16383 40).1.isSome = true ∧ (mboxDev.payload 16382 40).1 = none ∧ mboxDev.partState 46 = 0
    ∧ ((mboxDev.get fMntNegStatEnabled 47).testBit 0 = true ∧ mboxDev.partState 47 ≠ 0 ∧ mboxDev.noticeFits 47 = true) := by refine ⟨⟨?_, ?_⟩, ?_⟩ <;> decide +kernel

def staged0 : Image := { version := 1, security := 0, handoff := 0 }
def withMinuet (f : Minuet → Minuet) (d : Dev) : Dev := d.setMinuet (f d.minuet)
def imgDev : Dev := handed (handed xwDev 16383 kindImage 4096) 16382 kindPayload 1
/-- Verifying the two slots, which still hold what they held or not; with a staged image of each kind; waiting for an emergency to end. -/
def verifyDev : Dev := withMinuet (fun m => { m with verifying := some (16382, 2), minSecurity := 2 }) imgDev
def stagedDev : Dev := withMinuet (fun m => { m with staged := some staged0 }) imgDev
def hostStagedDev : Dev := imgDev.setHost { imgDev.host with fwStaged := some 9 }
def deferDev : Dev := (stagedDev.set fMntFwStatState 5).set fMntPwrStatClear100ms 1
def verdict (kind : Byte) (sv : W32) (k g : Bool) : ImageVerdict :=
  { keyOk := k, signatureOk := g, kind := kind, version := 3, securityVersion := sv, handoffVersion := 0 }
def keptDev : Dev := verifyDev.xwTakeAll [16382, 16383]
def spentDev (d : Dev) : Dev := d.setTempo { d.tempo with used := [(16 * 12 + actTelem, 2 ^ 40)] }
def logDev : Dev := withMinuet (fun m => { m with logSlots := [16382], logFill := 1, telemSlots := [16381] }) mboxDev

theorem witness_FirmwareResult_images :
    (onDev imgDev).Asks ∧ (onDev verifyDev).Asks ∧ (onDev stagedDev).Asks ∧ (onDev hostStagedDev).Asks
    ∧ (imgDev.minuet.verifying = none ∧ imgDev.minuet.handover = none ∧ imgDev.imageOwned 16382 2 = true ∧ imgDev.imageOwned 16382 3 = false)
    ∧ ((onDev keptDev).dev.minuet.verifying = some (16382, 2) ∧ ((List.range 2).map (16382 + ·)).all keptDev.xwKept = true
      ∧ verifyDev.minuet.verifying = some (16382, 2) ∧ ((List.range 2).map (16382 + ·)).all verifyDev.xwKept = false)
    ∧ (imgDev.minuet.staged = none ∧ imgDev.host.fwStaged = none)
    ∧ (stagedDev.minuet.verifying = none ∧ stagedDev.minuet.handover = none ∧ stagedDev.minuet.staged ≠ none
      ∧ stagedDev.get fMntPwrStatEmergency = 0 ∧ (stagedDev.set fMntPwrStatEmergency 1).get fMntPwrStatEmergency = 1
      ∧ (∃ c < 6, stagedDev.coreState c = 0) ∧ ∀ c < 6, (stagedDev.set fMntCoreStatCoreState 0x555).coreState c ≠ 0)
    ∧ (hostStagedDev.minuet.staged = none ∧ hostStagedDev.host.fwStaged = some 9)
    ∧ ((verdict 1 1 true true).securityVersion.toNat < verifyDev.minuet.minSecurity
      ∧ verifyDev.minuet.minSecurity ≤ (verdict 2 2 true true).securityVersion.toNat ∧ (verdict 3 2 true false).signatureOk = false
      ∧ (verdict 3 2 false true).keyOk = false)
    ∧ (deferDev.get fMntFwStatState = 5 ∧ deferDev.get fMntPwrStatClear100ms = 1 ∧ deferDev.minuet.staged ≠ none
      ∧ (∃ c < 6, deferDev.coreState c = 0) ∧ stagedDev.get fMntFwStatState ≠ 5)
    ∧ (logDev.minuet.telemSlots = [16381] ∧ imgDev.minuet.telemSlots = [] ∧ imgDev.minuet.logFill = 0 ∧ logDev.minuet.logFill ≠ 0
      ∧ logDev.minuet.logSlots = [16382] ∧ logDev.xwKept 16382 = false ∧ (logDev.xwTake 16382).xwKept 16382 = true
      ∧ logDev.xwKept 16381 = false ∧ logDev.spend 12 actTelem 64 ≠ none ∧ (logDev.xwTake 16381).xwKept 16381 = true
      ∧ (spentDev (logDev.xwTake 16381)).xwKept 16381 = true ∧ (spentDev (logDev.xwTake 16381)).spend 12 actTelem 64 = none
      ∧ logDev.halted = false) := by
  refine ⟨⟨?_, ?_⟩, ⟨?_, ?_⟩, ⟨?_, ?_⟩, ⟨?_, ?_⟩, ?_⟩ <;> decide +kernel

/-- A request that RESULT 1 grants and one it refuses, at the last allowed and the first other bit of FEATURES; watchdogs of a core in service with
spare cores, with none left, of one withdrawn, of a spare that boots with and without a handover, and one that restarts. -/
theorem witness_FirmwareResult_cores :
    (let offer (p : Nat) := Nat.land (Dev.reset.get fMntNegMaskAllow p) 7
     let ok (v : Nat) := natBitsAt v 8 8 = 1 ∧ Nat.land (natBitsAt v 32 16) (offer 47) = natBitsAt v 32 16
     ok (2 ^ 8 + 7 * 2 ^ 16 + offer 47 * 2 ^ 32) ∧ ¬ ok (2 ^ 8 + 8 * 2 ^ 32) ∧ ¬ ok (2 ^ 9))
    ∧ (let d := Dev.reset.set fMntCoreStatCoreState 0xFF7
       d.coreState 0 = 3 ∧ d.coreState 1 = 1 ∧ d.minuet.handover = none ∧ (∀ k < 6, k ≠ 1 → d.coreState k = 3)
         ∧ d.minuet.powerCycle = none)
    ∧ (let d := Dev.reset.set fMntCoreStatCoreState 0x3D9
       d.coreState 0 = 1 ∧ d.coreState 1 = 2 ∧ d.coreState 5 = 0 ∧ (∀ j < 5, d.coreState j ≠ 0) ∧ 0 ∈ d.minuet.roles ∧ 5 ∉ d.minuet.roles
         ∧ (d.setMinuet { d.minuet with handover := some { moved := none, slot := none } }).minuet.handover ≠ none)
    ∧ (let d := (Dev.reset.set fMntCoreStatCoreState 0x2AA).set fMntPwrStatLoopsHeld 1
       d.coreState d.loopsCore = 2 ∧ d.get fMntPwrStatLoopsHeld = 1 ∧ ∀ n < 69, (d.site n).hot = false) := by
  refine ⟨?_, ?_, ?_, ?_⟩ <;> decide +kernel
/-! ### Witnesses: power, bring-up, cut-ins, the whole machine -/

def hotDev : Dev := floorDev.setSite 68 { Site.initial with hot := true }
/-- Full service, site 0 at divider 9 and cool, the loops in service and their raise counters run out; and walk-through service. -/
def loopsDev : Dev :=
  let d := ((Dev.reset.set fMntBootStatStage 5).set fFlrSiteStatState siteRunning 0).set fMntCoreStatCoreState 0x55
  let d := (((d.set fFlrSiteStatCoreDiv 9 0).set fMntPwrCtlTileTarget 90).set fMntPwrCtlCapW 1000).set fMntPwrStatCapThrottle 1
  withMinuet (fun m => { m with raise := [(0, 9), (capKey, 9)] }) d

theorem witness_PowerResult :
    hotDev.halted = false ∧ 103 ≤ (103 : Byte).toNat ∧ (102 : Byte).toNat < 103 ∧ (99 : Byte).toNat < 100 ∧ (hotDev.site 68).hot = true
    ∧ Dev.reset.floor.pins.resetN = true
    ∧ (∀ v ∈ [184, 191, 233, 240], supplyTolerated v = true) ∧ (183 : Byte).toNat < 184 ∧ 240 < (241 : Byte).toNat
    ∧ Dev.reset.minuet.powerCycle = none
    ∧ (Dev.reset.set fMntCoreStatCoreState 0xAA).loopsRun = false ∧ loopsDev.loopsRun = true ∧ loopsDev.get fMntPwrStatLoopsHeld = 0 ∧ loopsDev.siteState 0 = 2
    ∧ loopsDev.siteHeld 0 = false ∧ loopsDev.tileCool 0 = true ∧ loopsDev.tileHot 0 = false ∧ 9 ≤ loopsDev.raiseMs 0
    ∧ 8 < loopsDev.get fFlrSiteStatCoreDiv 0 ∧ (loopsDev.set fMntPwrStatCapThrottle 0).get fMntPwrStatCapThrottle = 0
    ∧ (loopsDev.set fFlrSiteStatTemp 90 0).tileHot 0 = true ∧ (loopsDev.set fMntPwrStatBrake 1).siteHeld 0 = true
    ∧ loopsDev.get fMntPwrCtlCapW = 1000 ∧ loopsDev.get fMntPwrStatCapThrottle = 1 ∧ 9 ≤ loopsDev.raiseMs capKey ∧ 0 ∈ loopsDev.risers := by
  decide +kernel

def bring0 : BringUp :=
  { imageOk := true, recordOk := true, idOk := true, diesOk := true, failedSites := 2, refPresent := true, pubkey := 0, walkMs := 65535 }
/-- Walk-through with every stack but the last at speed, the last slow, every port settled, the Promenade lit. -/
def walkedDev : Dev :=
  let d := ((Dev.reset.set fMntBootStatStage 4).set fMntBootStatStacksFull (2 ^ 23 - 1)).set fMntBootStatPromUp 1
  let d := (d.set fPrtStatState partActive 47).set fFlrSiteStatState siteRunning 55
  (d.setHbm { d.hbm with slow := [23] }).setReel { d.reel with settled := List.range 16 }

/-- Minuet cores left and none; site 5 FAILED before reset. -/
theorem witness_BringUpResult_record :
    (∃ c < 6, c ∉ Dev.reset.minuet.lostCores)
    ∧ (¬ ∃ c < 6, c ∉ (withMinuet (fun m => { m with lostCores := List.range 6 }) Dev.reset).minuet.lostCores)
    ∧ (let d := Dev.reset.setFloor { Dev.reset.floor with unfit := [(5, 5)] }
       (5, 5) ∈ d.floor.unfit ∧ (∀ y ∈ d.floor.unfit, y.1 = 5 → y = (5, 5)) ∧ ∀ x ∈ d.floor.unfit, x.1 ≠ 0)
    ∧ (∀ x ∈ walkedDev.parts, x.2.reinit = none) := by decide +kernel

theorem witness_BringUpResult :
    Dev.reset.get fMntBootStatStage = 0 ∧ Dev.reset.floor.pins.pwrOk = true ∧ bring0.refPresent = true ∧ Dev.reset.minuet.powerCycle = none
    ∧ bring0.imageOk = true ∧ bring0.recordOk = true ∧ bring0.diesOk = true ∧ bring0.idOk = true
    ∧ Dev.reset.get fFlrSiteStatRole 0 = 0 ∧ Dev.reset.siteState 0 = 0 ∧ bring0.failedSites.getLsbD 1 = true
    ∧ bring0.failedSites.getLsbD 0 = false ∧ Dev.reset.get fMntResetCauseKind ≠ 2
    ∧ walkedDev.get fMntBootStatStage = 4 ∧ (walkedDev.get fMntBootStatStacksFull).testBit 22 = true
    ∧ (walkedDev.get fMntBootStatStacksFull).testBit 23 = false ∧ 23 ∈ walkedDev.hbm.slow ∧ 23 ∉ Dev.reset.hbm.slow
    ∧ walkedDev.halted = false ∧ walkedDev.fullReady = true ∧ Dev.reset.fullReady = false
    ∧ (∀ n < 69, walkedDev.siteState n ≠ 3) ∧ walkedDev.partState 47 ≠ 0 ∧ walkedDev.siteState 55 = 2 ∧ walkedDev.siteHeld 55 = false
    ∧ walkedDev.get fMntPwrStatCapThrottle = 0 ∧ (∀ k ∈ siteStacks 55, walkedDev.get fHbmStackStatThrottle k = 0) := by decide +kernel

/-- In full service: an approved proposal for tile 47; a cut-in of tile 0 that waits for a command on it, and one that is stopped. -/
def propDev : Dev :=
  let d := (Dev.reset.set fMntBootStatStage 5).set fCutPropValid 1 31
  ((d.set fCutPropKind 6 31).set fCutPropUnit 47 31).set fCutPropState 1 31
def cuttingDev (stopped : Bool) (d : Dev) : Dev :=
  withMinuet (fun m => { m with tileCutins := [{ tile := 0, site := 13, entry := 31, stopped := stopped }] }) (d.set fMntBootStatStage 5)

theorem witness_CutinResult_tile :
    propDev.get fMntBootStatStage = 5 ∧ propDev.cutinEntry 47 = some 31 ∧ propDev.cutinEntry 46 = none ∧ propDev.spareSite (47 / 12) = some 54
    ∧ propDev.minuet.tileCutins = [] ∧ propDev.halted = false
    ∧ 975 ≤ propDev.beatLeft (calibrator 54) 7 ∧ (propDev.set fTmpBeatsCutin 0 (calibrator 54)).beatLeft (calibrator 54) 7 < 975
    ∧ (let d := cuttingDev true Dev.reset
       d.minuet.tileCutins.find? (fun x => x.tile = 0) = some ⟨0, 13, 31, true⟩ ∧ d.tileHolders 0 = [] ∧ d.siteOf 0 = some 0)
    ∧ (let d := cuttingDev false (withCmd { cmd0 with engines := [⟨.core 0, .none, false⟩], outputs := [{ va := 65536, len := 4096, mode := .inplace, table := 0, rangePage := 16, shadows := [] }] })
       d.get fMntBootStatStage = 5 ∧ d.minuet.tileCutins.find? (fun x => x.tile = 0) = some ⟨0, 13, 31, false⟩
         ∧ (∃ c ∈ d.tileHolders 0, c.2.restartable = false)
         ∧ d.minuet.tileCutins.all (fun y => y.tile ≠ 0 || !y.stopped) = true) := by
  refine ⟨?_, ?_, ?_, ?_, ?_, ?_, ?_, ?_, ?_, ?_⟩ <;> decide +kernel

theorem witness_CutinResult_rest :
    propDev.halted = false ∧ (6, 53, 47, 3) ∉ propDev.minuet.declined
    ∧ propDev.spareLeft 6 47 = true ∧ propDev.spareLeft 5 95 = true
    ∧ natBitsAt (3 + 4 * 9 : BitVec 20).toNat 2 4 < 10
    ∧ Dev.reset.floor.pins.resetN = true ∧ Dev.reset.floor.pins.i3cAddr = none
    ∧ (Dev.reset.setPins { Dev.reset.floor.pins with i3cAddr := some 127 }).floor.pins.i3cAddr ≠ none := by decide +kernel

/-- A device held at level 4, at the last stage before bring-up stops and after. -/
def heldDev : Dev := { Dev.reset.set fMntBootStatStage 5 with halted := true }

theorem witness_LevelFourHolds :
    heldDev.halted = true ∧ atPins .telemetryTick = false ∧ inTest .telemetryTick = false
    ∧ atPins (.standalone true) = false ∧ inTest (.standalone true) = true ∧ heldDev.get fMntBootStatStage < 6
    ∧ (∀ d : Dev, exec .refLoss (onDev d) = .next (onDev (d.setFloor { d.floor with refLost := true }))) := by
  refine ⟨?_, ?_, ?_, ?_, ?_, ?_, fun d => rfl⟩ <;> decide +kernel

/-- An instruction with an encoding, and a word that decodes. -/
theorem witness_EncodeDecodeAgree :
    (Instr.ldAcq whoL { pr := never, vr := 63, ub := 31, vx := 63, am := 3, scope := 7, size := 3, sem := 2, off16 := 0xFFFF, fn := 0 }).wf = true
    ∧ (encodeJular (.ldAcq whoL { pr := never, vr := 63, ub := 31, vx := 63, am := 3, scope := 7, size := 3, sem := 2, off16 := 0xFFFF, fn := 0 })).isSome
    ∧ (decodeJular who0 0xC1C8000000000000).isSome := by decide +kernel

theorem witness_StepKeepsMemory :
    (onDev callDev).MemOk ∧ callDev.mem ≠ []
    ∧ ∀ d : Dev, step { pending := [.bypass], dev := d } = .next (onDev (d.setPins { d.floor.pins with ir := 0xFF })) := by
  refine ⟨?_, ?_, fun d => rfl⟩
  · unfold State.MemOk onDev; decide +kernel
  · decide +kernel
/-! ### Ill-formed commands are refused, one for each check -/

def memB (scope sem : BitVec 3) (fn : BitVec 5) : MemOp :=
  { pr := always, vr := 10, ub := 4, vx := 20, am := 2, scope := scope, size := 2, sem := sem, off16 := 64, fn := fn }

theorem test_wf_semantics :
    (Instr.ld who0 (memB 0 1 0)).wf = false ∧ (Instr.ldV who0 (memB 0 2 0)).wf = false ∧ (Instr.ldAcq who0 (memB 0 0 0)).wf = false
    ∧ (Instr.st who0 (memB 0 3 0)).wf = false ∧ (Instr.stRel who0 (memB 0 0 0)).wf = false
    ∧ (Instr.lds who0 (memB 4 0 0)).wf = false ∧ (Instr.sts who0 (memB 3 0 0)).wf = false
    ∧ (Instr.fenceAcq who0 (memB 0 3 0)).wf = false ∧ (Instr.fenceRel who0 (memB 0 4 0)).wf = false
    ∧ (Instr.fenceAr who0 (memB 0 2 0)).wf = false
    ∧ (Instr.statfStatistics who0 ⟨always, 0, 1⟩).wf = false ∧ (Instr.statfMonitor who0 ⟨always, 0, 2⟩).wf = false := by decide

theorem test_wf_functions :
    (Instr.atomAdd who0 (memB 0 0 1)).wf = false ∧ (Instr.atomFadd who0 (memB 0 0 16)).wf = false ∧ (Instr.atomAnd who0 (memB 0 0 3)).wf = false
    ∧ (Instr.atomOr who0 (memB 0 0 2)).wf = false ∧ (Instr.atomXor who0 (memB 0 0 5)).wf = false ∧ (Instr.atomSmin who0 (memB 0 0 6)).wf = false
    ∧ (Instr.atomSmax who0 (memB 0 0 5)).wf = false ∧ (Instr.atomUmin who0 (memB 0 0 8)).wf = false ∧ (Instr.atomUmax who0 (memB 0 0 7)).wf = false
    ∧ (Instr.atomExch who0 (memB 0 0 10)).wf = false ∧ (Instr.atomCas who0 (memB 0 0 11)).wf = false
    ∧ (Instr.zline who0 (memB 0 0 1)).wf = false ∧ (Instr.zlineS who0 (memB 0 0 0)).wf = false ∧ (Instr.invNearL who0 (memB 0 0 3)).wf = false
    ∧ (Instr.wbNearL who0 (memB 0 0 2)).wf = false ∧ (Instr.invNear who0 (memB 0 0 5)).wf = false ∧ (Instr.wbNear who0 (memB 0 0 4)).wf = false
    ∧ (Instr.pfNear who0 (memB 0 0 7)).wf = false ∧ (Instr.pfS who0 (memB 0 0 6)).wf = false := by decide

def seg0 (off : W64) (bytes : List Byte) : SegMsg :=
  { src := 0, window := 0, off := off, key := 0, group := 0, epoch := 0, rank := 0, allgather := false, add := false, shard := 0,
    bytes := bytes, id := 0 }

theorem test_wf_messages :
    (Instr.strAtom ⟨0, none, none, 0⟩ 0 4 0 true 0 0).wf = false ∧ (Instr.strAtom ⟨0, none, none, 0⟩ 0 4 11 false 0 0).wf = false
    ∧ (Instr.remoteWindowAccess 0 0 8 0 (.read 16) 0).wf = false ∧ (Instr.remoteWindowAccess 0 0 0 0 (.read 3) 0).wf = false
    ∧ (Instr.remoteWindowAccess 0 0 63 0 (.write [1, 2]) 0).wf = false ∧ (Instr.remoteWindowAccess 0 0 0 0 (.write []) 0).wf = false
    ∧ (Instr.remoteWindowAccess 0 0 2 0 (.atomic 0 false 0 0) 0).wf = false
    ∧ (Instr.ulkAllowanceDeclaration 0 0 false true).wf = false
    ∧ (Instr.remoteFenceSignal 0 0 32 0 (.absolute 0) 0).wf = false
    ∧ (Instr.collectiveSegment 0 (seg0 0 [])).wf = false ∧ (Instr.collectiveSegment 0 (seg0 63 [0, 0])).wf = false
    ∧ (Instr.chasseRetrainComplete 0 [5, 5] []).wf = false ∧ (Instr.chasseRetrainComplete 0 [] [5, 5]).wf = false
    ∧ (Instr.thermalLoopTick [(3, 1), (3, 2)]).wf = false := by decide

/-! ### Words written out field by field from the encoding tables -/

/-- MAJOR, PN and PS before the 54 bits of a format. -/
def word (major : BitVec 6) (pn : BitVec 1) (ps : BitVec 3) (rest : BitVec 54) : W64 := major ++ pn ++ ps ++ rest

theorem test_words_vector :
    decodeJular who0 (word 0x01 0 7 (62#8 ++ 2#8 ++ 4#8 ++ 6#8 ++ 1#2 ++ 5#3 ++ 3#7 ++ 2#3 ++ 0#7))
      = some (.fma who0 { pr := always, vd := 62, vs1 := 2, vs2 := 4, vs3 := 6, s2k := 1, ty := 5, pd := 2, aux := 0 })
    ∧ decodeJular who0 (word 0x02 1 3 (0#8 ++ 2#8 ++ 4#8 ++ 0#8 ++ 0#2 ++ 1#3 ++ 5#7 ++ 6#3 ++ 0#7))
      = some (.ge who0 { pr := ⟨3, true⟩, vd := 0, vs1 := 2, vs2 := 4, vs3 := 0, s2k := 0, ty := 1, pd := 6, aux := 0 })
    ∧ decodeJular who0 (word 0x03 0 7 (62#8 ++ 2#8 ++ 0#8 ++ 0#8 ++ 0#2 ++ 7#4 ++ 2#4 ++ 1#2 ++ 3#2 ++ 0#8))
      = some (.vcvt who0 { pr := always, vd := 62, vs1 := 2, sfmt := 7, dfmt := 2, ssel := 1, dsel := 3 })
    ∧ decodeJular who0 (word 0x04 0 7 (1#8 ++ 2#8 ++ 4#8 ++ 0#8 ++ 0#2 ++ 0#3 ++ 2#7 ++ 0#3 ++ 0x55#7))
      = some (.xchRot who0 { pr := always, vd := 1, vs1 := 2, vs2 := 4, vs3 := 0, s2k := 0, ty := 0, pd := 0, aux := 0x55 })
    ∧ decodeJular who0 (word 0x05 0 7 (1#8 ++ 2#8 ++ 4#8 ++ 0#8 ++ 0#2 ++ 0#3 ++ 1#7 ++ 0#3 ++ 0#7))
      = some (.rngDraw who0 { pr := always, vd := 1, vs1 := 2, vs2 := 4, vs3 := 0, s2k := 0, ty := 0, pd := 0, aux := 0 }) := by decide

theorem test_words_uniform :
    decodeJular who0 (word 0x10 0 7 (63#6 ++ 1#6 ++ 2#6 ++ 1#1 ++ 9#6 ++ 0#3 ++ 0#6 ++ 0xFFFFF#20))
      = some (.uniSar who0 { pr := always, ud := 63, us1 := 1, us2 := 2, imm := true, pd := 0, imm20 := 0xFFFFF })
    ∧ decodeJular who0 (word 0x11 0 7 (63#6 ++ 1#1 ++ 0#15 ++ 0xDEADBEEF#32))
      = some (.umoviHi who0 { pr := always, ud := 63, imm32 := 0xDEADBEEF })
    ∧ decodeJular who0 (word 0x12 0 7 (0#6 ++ 1#6 ++ 2#6 ++ 0#1 ++ 3#6 ++ 5#3 ++ 0#6 ++ 0#20))
      = some (.ucmpLe who0 { pr := always, ud := 0, us1 := 1, us2 := 2, imm := false, pd := 5, imm20 := 0 }) := by decide

theorem test_words_matrix :
    decodeJular who0 (word 0x18 0 7 (48#8 ++ 0x85#8 ++ 0xA#4 ++ 1#1 ++ 14#4 ++ 2#2 ++ 1#1 ++ 33#6 ++ 0#1 ++ 0#1 ++ 0#18))
      = some (.mma who0 { pr := always, vd := 48, va := 0x85, amask := 0xA, wb := true, fmt := 14, init := 2, gth := true, ua := 33,
                          dfmt := false, stat := false })
    ∧ decodeJular who0 (word 0x1A 0 7 (16#8 ++ 0#8 ++ 1#4 ++ 0#1 ++ 0#4 ++ 0#2 ++ 0#1 ++ 0#6 ++ 1#1 ++ 1#1 ++ 0#18))
      = some (.mdrain who0 { pr := always, vd := 16, va := 0, amask := 1, wb := false, fmt := 0, init := 0, gth := false, ua := 0,
                             dfmt := true, stat := true }) := by decide

theorem test_words_memory :
    decodeJular who0 (word 0x20 0 7 (10#8 ++ 4#6 ++ 20#8 ++ 2#2 ++ 3#3 ++ 2#3 ++ 2#3 ++ 0xFFF0#16 ++ 1#5))
      = some (.ldAcq who0 { pr := always, vr := 10, ub := 4, vx := 20, am := 2, scope := 3, size := 2, sem := 2, off16 := 0xFFF0, fn := 1 })
    ∧ decodeJular who0 (word 0x23 0 7 (10#8 ++ 4#6 ++ 20#8 ++ 1#2 ++ 4#3 ++ 2#3 ++ 0#3 ++ 64#16 ++ 0x12#5))
      = some (.sts who0 { pr := always, vr := 10, ub := 4, vx := 20, am := 1, scope := 4, size := 2, sem := 0, off16 := 64, fn := 0x12 })
    ∧ decodeJular who0 (word 0x26 0 7 (0#8 ++ 4#6 ++ 20#8 ++ 2#2 ++ 0#3 ++ 0#3 ++ 0#3 ++ 64#16 ++ 3#5))
      = some (.wbNearL who0 { pr := always, vr := 0, ub := 4, vx := 20, am := 2, scope := 0, size := 0, sem := 0, off16 := 64, fn := 3 }) := by
  decide

theorem test_words_control :
    decodeJular who0 (word 0x30 1 2 (3#6 ++ 0x000010#24 ++ 0xFFFFFE#24))
      = some (.split who0 { pr := ⟨2, true⟩, offb := 0x10, offa := 0xFFFFFE })
    ∧ decodeJular who0 (word 0x39 0 7 (15#4 ++ 62#6 ++ 4#3 ++ 0#6 ++ 0#6 ++ 1#1 ++ 0#28))
      = some (.waitringRel who0 { pr := always, h := 15, ud := 62, pd := 4, ua := 0, ul := 0 })
    ∧ decodeJular who0 (word 0x38 0 7 (2#4 ++ 0#6 ++ 0#3 ++ 61#6 ++ 60#6 ++ 0#1 ++ 0#28))
      = some (.rfill who0 { pr := always, h := 2, ud := 0, pd := 0, ua := 61, ul := 60 })
    ∧ decodeJular who0 (word 0x3C 0 7 (0#6 ++ 0#6 ++ 0#10 ++ 16#32)) = some (.nsplit who0 { pr := always, ua := 0, imm32 := 16 })
    ∧ decodeJular who0 (word 0x3C 0 7 (1#6 ++ 62#6 ++ 0#10 ++ 1#32)) = some (.statfMonitor who0 { pr := always, ua := 62, imm32 := 1 }) := by
  decide

/-- An all-zero word is illegal; reserved majors, functions, SEM values, the reserved second source. -/
theorem test_words_reserved :
    decodeJular who0 0 = none ∧ decodeJular who0 (word 0x06 0 7 0) = none ∧ decodeJular who0 (word 0x3F 0 7 0) = none
    ∧ decodeJular who0 (word 0x30 0 7 (10#6 ++ 0#48)) = none ∧ decodeJular who0 (word 0x01 0 7 (26#44 ++ 0#10)) = none
    ∧ decodeJular who0 (word 0x3C 0 7 (2#6 ++ 0#48)) = none := by decide
end Sys2Proof.Tests
end

section
/-! PROOFS. EXIT and BAR.UNIT (02 R34, R42 to R45, 03 R88): what leaving threads do to a group, where the group goes on, and what a
barrier's arrival and release leave behind. -/

namespace Sys2Proof.Machine

open Sys2Proof

variable {s : State} {w : Who} {c : Core} {r : Run} {g : Grp}

/-! ### Writing a key or a thread twice -/

@[simp] theorem smapPut_put_same {α : Type} (m : SMap α) (j : Nat) (x y : α) : smapPut (smapPut m j x) j y = smapPut m j y := by
  induction m with
  | nil => simp [smapPut]
  | cons h t ih =>
    obtain ⟨k, v⟩ := h
    rcases Nat.lt_trichotomy j k with hlt | heq | hgt
    · simp [smapPut, hlt]
    · simp [smapPut, heq]
    · simp [smapPut, Nat.not_lt_of_gt hgt, Nat.ne_of_gt hgt, ih]

@[simp] theorem Run.putThr_putThr_same (r : Run) (t : Thr) (g g' : Grp) : (r.putThr t g).putThr t g' = r.putThr t g' := by
  cases t <;> simp [Run.putThr]

@[simp] theorem Run.putThr_hdr (r : Run) (t : Thr) (g : Grp) : (r.putThr t g).hdr = r.hdr := by
  cases t <;> rfl

@[simp] theorem Dev.putThr_run_putThr (d : Dev) (w : Who) (c : Core) (r : Run) (g g' : Grp) :
    d.putThr w c (r.putThr w.thr g) g' = d.putThr w c r g' := by
  simp [Dev.putThr]

/-! ### Threads of a mask leave a group -/

theorem mask_and_and_right (a l k : Mask) : a &&& k &&& (l &&& k) = a &&& k &&& l := by
  rw [BitVec.and_comm l k, ← BitVec.and_assoc, BitVec.and_assoc a k k, BitVec.and_self]

theorem mask_and_not_and_self (l e : Mask) : l &&& ~~~(e &&& l) = l &&& ~~~e := by
  rw [BitVec.not_and, BitVec.and_or_distrib_left, BitVec.and_not_self]
  exact BitVec.or_zero

/-- Where a path keeps a live thread, the group does. -/
theorem mask_and_right_ne_zero {a k l : Mask} (h : a &&& k &&& l ≠ 0) : l &&& k ≠ 0 := fun h0 =>
  h (by rw [BitVec.and_assoc, BitVec.and_comm k l, h0]; exact BitVec.and_zero)

/-- A stack entry without the threads of a mask. -/
def StackEntry.without (e : StackEntry) (m : Mask) : StackEntry :=
  { e with saved := e.saved &&& ~~~m, pendMask := e.pendMask &&& ~~~m }

/-- A group past its EXIT without the threads of a mask, before any JOIN (R34). -/
def Grp.without (g : Grp) (m : Mask) : Grp :=
  { g with
    live := g.live &&& ~~~m
    active := g.active &&& ~~~m
    stack := g.stack.map fun e => e.without m
    pc := g.pc + 1 }

/-- EXIT is `Grp.without`, and then either the group's end or its JOINs (R34, R88). -/
theorem Grp.exitThreads_eq (g : Grp) (m : Mask) :
    g.exitThreads m = if g.live &&& ~~~m = 0 then { g.without m with sched := .exited, stack := [] }
      else joinLoop (2 * (g.without m).stack.length) (g.without m) := rfl

/-- With a thread active no JOIN follows. -/
theorem joinLoop_of_active {g : Grp} (n : Nat) (h : g.active ≠ 0) : joinLoop n g = g := by
  cases n with
  | zero => rfl
  | succ n => exact if_neg fun hj => h hj.1

theorem Grp.exitThreads_of_none_live {m : Mask} (h : g.live &&& ~~~m = 0) :
    g.exitThreads m = { g.without m with sched := .exited, stack := [] } := by
  rw [g.exitThreads_eq, if_pos h]

theorem Grp.exitThreads_of_active {m : Mask} (hl : g.live &&& ~~~m ≠ 0) (ha : g.active &&& ~~~m ≠ 0) :
    g.exitThreads m = g.without m := by
  rw [g.exitThreads_eq, if_neg hl, joinLoop_of_active _ ha]

/-- With no thread active and an entry on the stack, EXIT performs one JOIN when that brings threads back (R88). -/
theorem Grp.exitThreads_of_join {m : Mask} {e : StackEntry} {rest : List StackEntry} (hl : g.live &&& ~~~m ≠ 0)
    (ha : g.active &&& ~~~m = 0) (hs : g.stack = e :: rest) (hj : (g.without m).join.active ≠ 0) :
    g.exitThreads m = (g.without m).join := by
  have hloop : 2 * (g.without m).stack.length = 2 * rest.length + 1 + 1 := by
    simp [Grp.without, hs]
    omega
  have hjoin : (g.without m).active = 0 ∧ (g.without m).stack ≠ [] := by simp [Grp.without, hs, ha]
  rw [g.exitThreads_eq, if_neg hl, hloop, joinLoop, if_pos hjoin, joinLoop_of_active _ hj]

theorem Grp.join_of_pending {e : StackEntry} {rest : List StackEntry} (hs : g.stack = e :: rest) (hp : e.pendMask ≠ 0) :
    g.join = { g with active := e.pendMask &&& g.live, stack := { e with pendMask := 0 } :: rest, pc := e.pendTarget } := by
  rw [Grp.join, hs]
  exact if_pos hp

theorem Grp.join_of_no_pending {e : StackEntry} {rest : List StackEntry} (hs : g.stack = e :: rest) (hp : e.pendMask = 0) :
    g.join = { g with active := e.saved &&& g.live, stack := rest, pc := e.reconv } := by
  simp [Grp.join, hs, hp]

/-- The active path is gone and the top entry's other path is pending: the group takes that path. -/
theorem Grp.exitThreads_to_pending {m : Mask} {e : StackEntry} {rest : List StackEntry} (ha : g.active &&& ~~~m = 0)
    (hs : g.stack = e :: rest) (hp : e.pendMask &&& ~~~m &&& g.live ≠ 0) :
    g.exitThreads m = { g with
      live := g.live &&& ~~~m
      active := e.pendMask &&& ~~~m &&& g.live
      stack := { e.without m with pendMask := 0 } :: rest.map fun x => x.without m
      pc := e.pendTarget } := by
  have hw : (g.without m).stack = e.without m :: rest.map fun x => x.without m := by simp [Grp.without, hs]
  have hpm : (e.without m).pendMask ≠ 0 := fun h0 =>
    hp (by rw [show e.pendMask &&& ~~~m = 0 from h0]; exact BitVec.zero_and)
  have hj := Grp.join_of_pending hw hpm
  have hact : (e.without m).pendMask &&& (g.without m).live = e.pendMask &&& ~~~m &&& g.live := mask_and_and_right ..
  rw [hact] at hj
  rw [Grp.exitThreads_of_join (mask_and_right_ne_zero hp) ha hs (by rw [hj]; exact hp), hj]
  rfl

/-- The active path is gone and the top entry has none pending: the group goes on at the reconvergence point. -/
theorem Grp.exitThreads_to_reconv {m : Mask} {e : StackEntry} {rest : List StackEntry} (ha : g.active &&& ~~~m = 0)
    (hs : g.stack = e :: rest) (hp : e.pendMask &&& ~~~m = 0) (hv : e.saved &&& ~~~m &&& g.live ≠ 0) :
    g.exitThreads m = { g with
      live := g.live &&& ~~~m
      active := e.saved &&& ~~~m &&& g.live
      stack := rest.map fun x => x.without m
      pc := e.reconv } := by
  have hw : (g.without m).stack = e.without m :: rest.map fun x => x.without m := by simp [Grp.without, hs]
  have hj := Grp.join_of_no_pending hw (show (e.without m).pendMask = 0 from hp)
  have hact : (e.without m).saved &&& (g.without m).live = e.saved &&& ~~~m &&& g.live := mask_and_and_right ..
  rw [hact] at hj
  rw [Grp.exitThreads_of_join (mask_and_right_ne_zero hv) ha hs (by rw [hj]; exact hv), hj]
  rfl

/-! ### What an error of a command leaves as it was -/

@[simp] theorem Dev.sendKill_cores (d : Dev) (q slot : Nat) (why : KillWhy) : (d.sendKill q slot why).cores = d.cores := by
  unfold Dev.sendKill
  split
  · rfl
  · split
    · rfl
    · split <;> rfl

@[simp] theorem Dev.checkBarriers_core (d : Dev) (r : Run) (k : Nat) : (d.checkBarriers r).core k = d.core k := by
  unfold Dev.checkBarriers
  split <;> simp [Dev.core, Dev.raise]

/-! ### The exit of a whole group changes no thread -/

@[simp] theorem Run.settleRing_groups (r : Run) (h : Nat) : (r.settleRing h).groups = r.groups := by
  unfold Run.settleRing
  split <;> rfl

@[simp] theorem Run.settle_groups (r : Run) : r.settle.groups = r.groups :=
  List.foldlRecOn (motive := fun x : Run => x.groups = r.groups) _ _ rfl fun _ hx h _ => (Run.settleRing_groups _ h).trans hx

@[simp] theorem Run.groupExited_groups (r : Run) (gi : Nat) : (r.groupExited gi).groups = r.groups := by
  simp [Run.groupExited]

/-- The troupe once a thread of it has ended: the thread stored, and what a follow group held released. -/
def Run.threadEnded (r : Run) (t : Thr) (g : Grp) : Run :=
  if thrIsLead t then r.putThr t g else (r.putThr t g).groupExited (thrIndex t)

theorem Run.thr_threadEnded_same (r : Run) (t : Thr) (g : Grp) : (r.threadEnded t g).thr t = some g := by
  cases t with
  | group i => simp [Run.threadEnded, thrIsLead, Run.thr, Run.putThr]
  | lead k => simpa [Run.threadEnded, thrIsLead] using r.thr_putThr_same (.lead k) g

/-! ### EXIT -/

theorem exec_exit (w : Who) (o : COp) (s : State) : exec (.exit w o) s = execExit w o s := rfl

theorem Dev.jump_of_inCode (d : Dev) (w : Who) (c : Core) {r : Run} (g : Grp) {pc : Nat} (h : r.hdr.inCode pc = true) :
    d.jump w c r g pc = d.putThr w c r { g with pc := pc } := by
  simp [Dev.jump, h]

/-- An EXIT of some threads after which the group goes on at a word of the code region. -/
theorem State.Issues.exit_of_continues (h : s.Issues w c r g) {o : COp} {g' : Grp} (hm : g.eff o.pr &&& g.live ≠ 0)
    (hg : g.exitThreads (g.eff o.pr &&& g.live) = g') (hx : g'.sched ≠ .exited) (hc : r.hdr.inCode g'.pc = true) :
    exec (.exit w o) s = .next (s.withThr w c r g') := by
  have hjump := Dev.jump_of_inCode (r := r.putThr w.thr g') s.dev w c g' (by rw [Run.putThr_hdr]; exact hc)
  rw [Dev.putThr_run_putThr] at hjump
  rw [exec_exit, execExit, State.live_of h.live, h.issue (.inr rfl) rfl (thrDrain_nil _ _)]
  simp only [hm, if_false, hg, hx, hjump]
  rfl

/-- An EXIT of the last live threads. -/
theorem State.Issues.exit_of_ends (h : s.Issues w c r g) {o : COp} {g' : Grp} (hm : g.eff o.pr &&& g.live ≠ 0)
    (hg : g.exitThreads (g.eff o.pr &&& g.live) = g') (hx : g'.sched = .exited) :
    exec (.exit w o) s = .next (s.withDev
      ((s.dev.setCore w.core.val { c with run := some (r.threadEnded w.thr g') }).checkBarriers (r.threadEnded w.thr g'))) := by
  rw [exec_exit, execExit, State.live_of h.live, h.issue (.inr rfl) rfl (thrDrain_nil _ _)]
  simp only [hm, if_false, hg, hx, if_true]
  rfl

/-! ### BAR.UNIT -/

theorem exec_barUnit (w : Who) (o : COp) (s : State) : exec (.barUnit w o) s = execBarUnit w o s := rfl

theorem State.Issues.barUnit_of_empty (h : s.Issues w c r g) (hl : thrIsLead w.thr = false) {o : COp} (he : g.eff o.pr = 0) :
    exec (.barUnit w o) s = .next (s.advanced w c r g) := by
  rw [exec_barUnit, execBarUnit, State.live_of h.live, h.issue (.inl hl) rfl (thrDrain_nil _ _)]
  simp only [he, if_true]
  rfl

theorem State.Issues.barUnit_of_part (h : s.Issues w c r g) (hl : thrIsLead w.thr = false) {o : COp} (he : g.eff o.pr ≠ 0)
    (hp : g.eff o.pr ≠ g.live) :
    exec (.barUnit w o) s = .next (s.withDev (s.dev.instError w c r g errBarrierDivergent)) := by
  rw [exec_barUnit, execBarUnit, State.live_of h.live, h.issue (.inl hl) rfl (thrDrain_nil _ _)]
  simp only [he, hp, if_false, ne_eq, not_false_eq_true, if_true]
  rfl

/-- An arrival within a core: nothing but the wait, and the check of R43. -/
theorem State.Issues.barUnit_of_whole (h : s.Issues w c r g) (hl : thrIsLead w.thr = false) {o : COp} (he : g.eff o.pr ≠ 0)
    (hw : g.eff o.pr = g.live) (hn : r.barNear = false) :
    exec (.barUnit w o) s
      = .next (s.withDev ((s.dev.stall w c r g.step (.barrier (o.offa.toNat % 16))).checkBarriers r)) := by
  rw [exec_barUnit, execBarUnit, State.live_of h.live, h.issue (.inl hl) rfl (thrDrain_nil _ _)]
  have hlive : g.live ≠ 0 := hw ▸ he
  simp only [hw, hlive, if_false, ne_eq, not_true_eq_false, hn, Bool.false_eq_true, h.core]
  rfl

/-! ### The release -/

theorem exec_barrierRelease (core : Fin 768) (b : Fin 16) (s : State) :
    exec (.barrierRelease core b) s = execBarrierRelease core b s := rfl

/-- A troupe on one core has that core's run alone. -/
theorem State.RunsOn.troupeRuns_of_one_core {k : Nat} (h : s.RunsOn k c r) (hc : r.cores = [k]) :
    s.dev.troupeRuns r = [(k, r)] := by
  simp [Dev.troupeRuns, hc, h.core, h.run]

theorem State.RunsOn.troupeLive_of_one_core {k : Nat} (h : s.RunsOn k c r) (hc : r.cores = [k]) :
    s.dev.troupeLive r = (r.groups.map (·.2)).filter fun g => g.sched ≠ .exited := by
  simp [Dev.troupeLive, h.troupeRuns_of_one_core hc]

theorem State.RunsOn.barrierRelease {core : Fin 768} {b : Fin 16} (h : s.RunsOn core.val c r) (hc : r.cores = [core.val])
    (hn : r.barNear = false) (hne : s.dev.troupeLive r ≠ []) (hall : allAt (s.dev.troupeLive r) b.val = true) :
    exec (.barrierRelease core b) s = .next (s.withRun core.val c (r.wakeBarrier b.val)) := by
  rw [exec_barrierRelease, execBarrierRelease, State.live_of h.live]
  simp [h.core, h.run, hne, hall, h.troupeRuns_of_one_core hc, hn, State.withRun, State.withDev]

/-- A release: some group of the troupe is live, and every live one waits at the barrier (R43). -/
theorem State.RunsOn.allAt_of_one_core {k b : Nat} (h : s.RunsOn k c r) (hc : r.cores = [k])
    (hall : ∀ x ∈ r.groups, x.2.sched = .exited ∨ x.2.sched = .pendingWait (.barrier b)) :
    allAt (s.dev.troupeLive r) b = true := by
  rw [h.troupeLive_of_one_core hc, allAt, List.all_eq_true]
  intro g hg
  obtain ⟨hmem, hlive⟩ := List.mem_filter.mp hg
  obtain ⟨x, hx, rfl⟩ := List.mem_map.mp hmem
  exact decide_eq_true ((hall x hx).resolve_left (of_decide_eq_true hlive))

theorem State.RunsOn.troupeLive_ne_nil {k : Nat} (h : s.RunsOn k c r) (hc : r.cores = [k])
    (hex : ∃ x ∈ r.groups, x.2.sched ≠ .exited) : s.dev.troupeLive r ≠ [] := by
  obtain ⟨x, hx, hlive⟩ := hex
  rw [h.troupeLive_of_one_core hc]
  exact List.ne_nil_of_mem (List.mem_filter.mpr ⟨List.mem_map_of_mem hx, decide_eq_true hlive⟩)

/-! ### EXIT by what it leaves of the group -/

/-- Threads of the group stay active: it goes on to the next word. -/
theorem State.Issues.exit_of_some_active (h : s.Issues w c r g) {o : COp} (hm : g.eff o.pr &&& g.live ≠ 0)
    (ha : g.active &&& ~~~(g.eff o.pr &&& g.live) ≠ 0) (hl : g.live &&& ~~~(g.eff o.pr &&& g.live) ≠ 0)
    (hc : r.hdr.inCode (g.pc + 1) = true) :
    exec (.exit w o) s = .next (s.withThr w c r (g.without (g.eff o.pr &&& g.live))) := by
  have hx : (g.without (g.eff o.pr &&& g.live)).sched ≠ .exited := by simp [Grp.without, h.active]
  exact h.exit_of_continues hm (Grp.exitThreads_of_active hl ha) hx hc

/-- No thread of the group is left: it has exited. -/
theorem State.Issues.exit_of_none_live (h : s.Issues w c r g) {o : COp} (hm : g.eff o.pr &&& g.live ≠ 0)
    (hl : g.live &&& ~~~(g.eff o.pr &&& g.live) = 0) :
    ∃ t, exec (.exit w o) s = .next t
      ∧ t.thread w = some { g.without (g.eff o.pr &&& g.live) with sched := .exited, stack := [] } := by
  refine ⟨_, h.exit_of_ends hm (Grp.exitThreads_of_none_live hl) rfl, ?_⟩
  simp [State.thread, State.withDev, Run.thr_threadEnded_same]

end Sys2Proof.Machine

namespace Sys2Proof

open Machine

/-- Settles O23: EXIT by what it leaves of the live mask, the active mask and the top stack entry; BAR.UNIT by its effective mask; and
the release by the troupe's live groups, all of which wait at the barrier. -/
theorem exitAndBarrierResult : Obligations.ExitAndBarrierResult := by
  unfold Obligations.ExitAndBarrierResult
  refine ⟨fun s w o c r g h hm => ⟨fun ha hl hc => ?_, fun hl => ?_, fun e rest ha hs => ⟨fun hp hc => ?_, fun hp hv hc => ?_⟩⟩,
    fun s w o c r g h hl he => h.barUnit_of_empty hl he, fun s w o c r g h hl he hw hn => ?_,
    fun s w o c r g h hl he hp => h.barUnit_of_part hl he hp, fun s core b c r h hc hn hex hall => ?_⟩
  · exact ⟨_, _, h.exit_of_some_active hm ha hl hc, s.thread_withThr .., mask_and_not_and_self .., rfl, h.active, rfl, rfl, rfl, rfl, rfl⟩
  · obtain ⟨t, ht, hthr⟩ := h.exit_of_none_live hm hl
    exact ⟨t, _, ht, hthr, hl, rfl, rfl, rfl⟩
  · exact h.exit_of_continues hm (Grp.exitThreads_to_pending ha hs hp) (by simp [h.active]) hc
  · exact h.exit_of_continues hm (Grp.exitThreads_to_reconv ha hs hp hv) (by simp [h.active]) hc
  · rw [h.barUnit_of_whole hl he hw hn]
    simp [Dev.stall, hl, Dev.putThr, Grp.step]
  · exact h.barrierRelease hc hn (h.troupeLive_ne_nil hc hex) (h.allAt_of_one_core hc hall)

end Sys2Proof
end

section
/-! PROOFS. The matrix instructions (03 R82 to R86, 04 R102, R105, R108): what each does by its effective mask, and what a WLOAD, an MMA
and an MDRAIN of a whole group leave at the arrays of AMASK. -/

namespace Sys2Proof.Machine

open Sys2Proof

variable {s : State} {w : Who} {c : Core} {r : Run} {g : Grp} {o : MOp}

theorem exec_wload (w : Who) (o : MOp) (s : State) : exec (.wload w o) s = execWload w o s := rfl
theorem exec_mma (w : Who) (o : MOp) (s : State) : exec (.mma w o) s = execMma w o s := rfl
theorem exec_mdrain (w : Who) (o : MOp) (s : State) : exec (.mdrain w o) s = execMdrain w o s := rfl

/-- The follow group i issues a matrix instruction with its whole live mask, and the matrix unit is free for it (R86, R108). -/
structure State.MatrixReady (s : State) (w : Who) (o : MOp) (c : Core) (r : Run) (g : Grp) (i : Fin 64) : Prop where
  issues : s.Issues w c r g
  thr : w.thr = .group i
  whole : g.eff o.pr = g.live
  nonempty : g.live ≠ 0
  unit : r.mtxFree i.val = true

/-- AMASK names one array of the core, which the group gi need not wait for (R82, R84). -/
structure Run.NamesArray (r : Run) (o : MOp) (gi a : Nat) (x : ArrayRun) : Prop where
  one : amaskArrays o.amask = [a]
  array : r.arrays[a]? = some x
  unblocked : r.arrayBlocked a gi = false

/-! ### A matrix instruction by its effective mask (R86) -/

section
variable {regs : List Nat} {bad : Core → Run → Bool} {fmt : Option Nat} {waits : Bool}
  {body : Dev → Core → Run → Grp → Nat → Dev}

theorem State.Issues.matrix_of_empty (h : s.Issues w c r g) (hl : thrIsLead w.thr = false) (hb : bad c r = false)
    (hd : thrDrain r w.thr regs = none) (he : g.eff o.pr = 0) :
    s.live (fun d => d.matrix w o regs bad fmt waits (body d)) = .next (s.advanced w c r g) := by
  rw [State.live_of h.live, Dev.matrix, h.issue (.inl hl) hb hd]
  simp only [he, if_true]
  rfl

theorem State.Issues.matrix_of_divergent (h : s.Issues w c r g) (hl : thrIsLead w.thr = false) (hb : bad c r = false)
    (hd : thrDrain r w.thr regs = none) (he : g.eff o.pr ≠ 0) (hp : g.eff o.pr ≠ g.live) :
    s.live (fun d => d.matrix w o regs bad fmt waits (body d))
      = .next (s.withDev (s.dev.instError w c r g errMatrixDivergent)) := by
  rw [State.live_of h.live, Dev.matrix, h.issue (.inl hl) hb hd]
  simp only [he, hp, if_false, if_true, ne_eq, not_false_eq_true]
  rfl

/-- A whole group with the matrix unit free and no array to wait for runs the body. -/
theorem State.MatrixReady.run {i : Fin 64} (h : s.MatrixReady w o c r g i) (hb : bad c r = false)
    (hf : r.walk = true → (fmt.map mmaUnavailable).getD false = false) (hd : thrDrain r w.thr regs = none)
    (ha : waits = true → ∀ a ∈ amaskArrays o.amask, r.arrayBlocked a i.val = false) :
    s.live (fun d => d.matrix w o regs bad fmt waits (body d)) = .next (s.withDev (body s.dev c r g i.val)) := by
  have hl : thrIsLead w.thr = false := by rw [h.thr]; rfl
  have hi : thrIndex w.thr = i.val := by rw [h.thr]; rfl
  have hfmt : (r.walk && (fmt.map mmaUnavailable).getD false) = false := Bool.and_eq_false_imp.mpr hf
  have hnone : (amaskArrays o.amask).filter (fun a => waits && r.arrayBlocked a i.val) = [] :=
    List.filter_eq_nil_iff.mpr fun a hmem =>
      Bool.eq_false_iff.mp (Bool.and_eq_false_imp.mpr fun hwaits => ha hwaits a hmem)
  rw [State.live_of h.issues.live, Dev.matrix, h.issues.issue (.inl hl) hb hd]
  simp only [h.whole, h.nonempty, hi, hfmt, h.unit, hnone, if_false, ne_eq, not_true_eq_false, Bool.false_eq_true, Bool.not_true]
  rfl

/-- The two outcomes without the whole live mask, the same for each matrix instruction. -/
theorem State.Issues.matrix_of_not_whole (h : s.Issues w c r g) (hl : thrIsLead w.thr = false) (hb : bad c r = false)
    (hd : thrDrain r w.thr regs = none) :
    (g.eff o.pr = 0 → s.live (fun d => d.matrix w o regs bad fmt waits (body d)) = .next (s.advanced w c r g))
      ∧ (g.eff o.pr ≠ 0 → g.eff o.pr ≠ g.live →
        s.live (fun d => d.matrix w o regs bad fmt waits (body d))
          = .next (s.withDev (s.dev.instError w c r g errMatrixDivergent))) :=
  ⟨h.matrix_of_empty hl hb hd, h.matrix_of_divergent hl hb hd⟩

end

/-! ### Decode checks that pass -/

section
variable {gi a : Nat} {x : ArrayRun}

theorem Run.NamesArray.amaskBad_eq_false (hx : r.NamesArray o gi a x) : amaskBad r o.amask = false := by
  have hm : o.amask ≠ 0 := fun h0 => by
    have hnone : amaskArrays o.amask = [] := by rw [h0]; decide
    exact List.cons_ne_nil _ _ (hx.one.symm.trans hnone)
  obtain ⟨hlt, -⟩ := List.getElem?_eq_some_iff.mp hx.array
  rw [amaskBad, decide_eq_false hm, hx.one]
  simpa using hlt

theorem Run.NamesArray.amaskOne (hx : r.NamesArray o gi a x) : amaskOne o.amask = true := by
  simp [Machine.amaskOne, hx.one]

theorem Run.NamesArray.all_unblocked (hx : r.NamesArray o gi a x) : ∀ k ∈ amaskArrays o.amask, r.arrayBlocked k gi = false := by
  simpa [hx.one] using hx.unblocked

end

/-- The decode checks of WLOAD (R85). -/
def wloadBad (r : Run) (o : MOp) : Bool := !mmaFmtOk o.fmt.toNat || amaskBad r o.amask || !amaskOne o.amask

/-- The decode checks of MDRAIN (R85). -/
def mdrainBad (r : Run) (o : MOp) : Bool :=
  amaskBad r o.amask || !amaskOne o.amask || o.vd.toNat % 16 ≠ 0 || o.vd.toNat + mdrainCount o > r.hdr.vregs

theorem wloadBad_eq_false (hf : mmaFmtOk o.fmt.toNat = true) (hb : amaskBad r o.amask = false) (h1 : amaskOne o.amask = true) :
    wloadBad r o = false := by
  simp [wloadBad, hf, hb, h1]

theorem mdrainBad_eq_false (hb : amaskBad r o.amask = false) (h1 : amaskOne o.amask = true) (hv : o.vd.toNat % 16 = 0)
    (hr : o.vd.toNat + mdrainCount o ≤ r.hdr.vregs) : mdrainBad r o = false := by
  simp [mdrainBad, hb, h1, hv, hr]

/-! ### What an MMA with INIT 1 on one array meets and does -/

section
variable {a gi : Nat} {x : ArrayRun} {b : Bool}

theorem Run.NamesArray.mmaArrayBad_of_own_tile (hx : r.NamesArray o gi a x) (hi : o.init ≠ 0)
    (ho : (x.buf o.wb).owner = some gi) (hf : (x.buf o.wb).fmt = o.fmt.toNat) : mmaArrayBad r o gi = false := by
  rw [mmaArrayBad, hx.one]
  simp only [List.any_cons, List.any_nil, Bool.or_false, hx.array, ho, hf, hi, decide_false, Bool.false_and, ne_eq,
    not_true_eq_false]

theorem Run.NamesArray.mmaNoBank_of_freeBank (hx : r.NamesArray o gi a x) (ho : x.owner ≠ some gi)
    (hb : x.freeBank = some b) : mmaNoBank r o gi = false := by
  simp [mmaNoBank, hx.one, hx.array, ho, hb]

@[simp] theorem ArrayRun.setBank_ops (x : ArrayRun) (b : Bool) (k : Bank) : (x.setBank b k).ops = x.ops := by
  cases b <;> rfl

/-- A chain that opens on an array not bound to the group: the free bank, cleared, and the rows on their way to it. -/
theorem Run.mmaArray_of_opens (hx : r.arrays[a]? = some x) (hi : o.init = 1) (ho : x.owner ≠ some gi)
    (hb : x.freeBank = some b) (rows : List (List Nat × Nat)) (k : Nat) :
    r.mmaArray c g gi o rows k a = r.setArray a
      { (x.setBank b { st := .opened, acc := [] }) with
        binding := .chain gi b
        ops := x.ops ++ [.mac b o.wb o.fmt.toNat rows] } := by
  simp [Run.mmaArray, hx, hi, ho, hb]

end

/-! ### The instructions of a whole group -/

section
variable {i : Fin 64} {a : Nat} {x : ArrayRun} {b : Bool}

/-- R82 to R84: the rows stream into the chains of every array of AMASK. -/
theorem State.MatrixReady.mma {rows : List (List Nat × Nat)} (h : s.MatrixReady w o c r g i) (hb : mmaBad r o = false)
    (hf : r.walk = true → mmaUnavailable o.fmt.toNat = false) (hd : thrDrain r w.thr (mmaRegs o) = none)
    (ha : o.init ≠ 0 → ∀ a ∈ amaskArrays o.amask, r.arrayBlocked a i.val = false)
    (hbad : mmaArrayBad r o i.val = false) (hbank : mmaNoBank r o i.val = false)
    (hrows : (if o.gth then gatherRows c r (g.ureg (o.va.toNat % 64)) o.fmt.toNat
      else .ok (g.actRows o.fmt.toNat o.va.toNat)) = .ok rows) :
    exec (.mma w o) s = .next (s.withDev
      ((s.dev.countMacs r.ctx ((amaskArrays o.amask).map fun a => (c.arrayWidths[a]?).getD 32)).putThr w c
        ((List.range (amaskArrays o.amask).length).foldl
          (fun r k => r.mmaArray c g i.val o rows k ((amaskArrays o.amask).getD k 0)) { r with mtx := none }) g.step)) := by
  rw [exec_mma, execMma]
  refine (h.run (bad := fun _ r => mmaBad r o) (fmt := some o.fmt.toNat) hb hf hd
    fun hwaits => ha (of_decide_eq_true hwaits)).trans ?_
  simp only [hbad, hrows, hbank, if_false, Bool.false_eq_true]

/-- R82, R105, R108: INIT 1 on one array not bound to the group. -/
theorem State.MatrixReady.mma_opens_chain (h : s.MatrixReady w o c r g i) (hx : r.NamesArray o i.val a x) (hb : mmaBad r o = false)
    (hf : r.walk = true → mmaUnavailable o.fmt.toNat = false) (hd : thrDrain r w.thr (mmaRegs o) = none) (hi : o.init = 1)
    (hg : o.gth = false) (ho : x.owner ≠ some i.val) (hbank : x.freeBank = some b) (hown : (x.buf o.wb).owner = some i.val)
    (hfmt : (x.buf o.wb).fmt = o.fmt.toNat) :
    exec (.mma w o) s = .next (s.withDev ((s.dev.countMacs r.ctx [(c.arrayWidths[a]?).getD 32]).putThr w c
      (({ r with mtx := none } : Run).setArray a
        { (x.setBank b { st := .opened, acc := [] }) with
          binding := .chain i.val b
          ops := x.ops ++ [.mac b o.wb o.fmt.toNat (g.actRows o.fmt.toNat o.va.toNat)] }) g.step)) := by
  have hinit : o.init ≠ 0 := by simp [hi]
  have hbad := hx.mmaArrayBad_of_own_tile hinit hown hfmt
  have hfree := hx.mmaNoBank_of_freeBank ho hbank
  have hrows : (if o.gth then gatherRows c r (g.ureg (o.va.toNat % 64)) o.fmt.toNat
      else .ok (g.actRows o.fmt.toNat o.va.toNat)) = .ok (g.actRows o.fmt.toNat o.va.toNat) := by simp [hg]
  have hopen := Run.mmaArray_of_opens (r := { r with mtx := none }) (c := c) (g := g) hx.array hi ho hbank
    (g.actRows o.fmt.toNat o.va.toNat) 0
  rw [h.mma hb hf hd (fun _ => hx.all_unblocked) hbad hfree hrows, hx.one, ← hopen]
  rfl

/-- R83, R85, R102: the tile on its way from scratch to the buffer, and a free array held. -/
theorem State.MatrixReady.wload (h : s.MatrixReady w o c r g i) (hx : r.NamesArray o i.val a x) {off : Nat}
    (hfmt : mmaFmtOk o.fmt.toNat = true) (hf : r.walk = true → mmaUnavailable o.fmt.toNat = false)
    (hoff : natBitsAt (g.ureg o.ua.toNat).toNat 0 20 = off) (hal : off % 64 = 0)
    (hfit : off + tileBytes o.fmt.toNat ≤ c.scratchSize r) (hp : r.poisoned off (tileBytes o.fmt.toNat) = false) :
    exec (.wload w o) s = .next (s.withThr w c (r.setArray a
      { (x.setBuf o.wb { x.buf o.wb with owner := some i.val, fmt := o.fmt.toNat }) with
        binding := if x.binding = .free then .held i.val else x.binding
        ops := x.ops ++ [.load o.wb (memRead r.scratch off (tileBytes o.fmt.toNat))] }) g.step) := by
  have hchecks := wloadBad_eq_false hfmt hx.amaskBad_eq_false hx.amaskOne
  rw [exec_wload, execWload]
  refine (h.run (bad := fun _ r => wloadBad r o) (fmt := some o.fmt.toNat) hchecks hf (thrDrain_nil _ _)
    fun _ => hx.all_unblocked).trans ?_
  simp [hx.one, hx.array, hoff, hal, Nat.not_lt_of_le hfit, hp, State.withThr]

/-- R85, R105, R108: the group's chain ends, its bank drains and the array is released. -/
theorem State.MatrixReady.mdrain (h : s.MatrixReady w o c r g i) (hx : r.NamesArray o i.val a x) (hc : x.binding = .chain i.val b)
    (hv : o.vd.toNat % 16 = 0) (hr : o.vd.toNat + mdrainCount o ≤ r.hdr.vregs)
    (hd : thrDrain r w.thr ((List.range (mdrainCount o)).map (o.vd.toNat + ·)) = none) :
    exec (.mdrain w o) s = .next (s.withThr w c (r.setArray a
      { (x.setBank b { x.bank b with
          st := .draining { g := i.val, vd := o.vd.toNat, bf16 := o.dfmt, stat := o.stat, width := (c.arrayWidths[a]?).getD 32 } })
        with binding := .free }) g.step) := by
  have hchecks := mdrainBad_eq_false hx.amaskBad_eq_false hx.amaskOne hv hr
  rw [exec_mdrain, execMdrain]
  refine (h.run (bad := fun _ r => mdrainBad r o) (fmt := none) hchecks (fun _ => rfl) hd fun _ => hx.all_unblocked).trans ?_
  simp [hx.one, hx.array, hc, State.withThr]

end

end Sys2Proof.Machine

namespace Sys2Proof

open Machine

/-- Settles O11: the instructions of a whole group by what they leave at their arrays, and every other effective mask by the two outcomes
that the matrix instructions share. -/
theorem matrixResult : Obligations.MatrixResult := by
  unfold Obligations.MatrixResult
  refine ⟨⟨fun s w o c r g i a x h ht hw hne ha hx hm hfree => ?_, fun s w o c r g i rows h ht hw hne hb hf hd hm => ?_⟩,
    fun s w o c r g h hl => ⟨fun hb hd => ?_, fun hf hb h1 => ?_, fun hb h1 hv hr hd => ?_⟩⟩
  · have ready : s.MatrixReady w o c r g i := ⟨h, ht, hw, hne, hm⟩
    have names : r.NamesArray o i.val a x := ⟨ha, hx, hfree⟩
    refine ⟨fun off => ready.wload names, ?_, fun b => ready.mdrain names⟩
    rintro b rows hb hf hd hi hg rfl
    exact ready.mma_opens_chain names hb hf hd hi hg
  · exact State.MatrixReady.mma ⟨h, ht, hw, hne, hm⟩ hb hf hd
  · rw [exec_mma, execMma]
    exact h.matrix_of_not_whole (bad := fun _ r => mmaBad r o) hl hb hd
  · rw [exec_wload, execWload]
    exact h.matrix_of_not_whole (bad := fun _ r => wloadBad r o) hl (wloadBad_eq_false hf hb h1) (thrDrain_nil _ _)
  · rw [exec_mdrain, execMdrain]
    exact h.matrix_of_not_whole (bad := fun _ r => mdrainBad r o) hl (mdrainBad_eq_false hb h1 hv hr) hd

end Sys2Proof
end

section
/-! PROOFS. Floating-point codes (05 R120, R124 to R126): a code as sign, exponent and mantissa, rounding of the values that a format
holds, the order behind MIN and MAX, and what a NaN operand does to them, to ONLMAX and to a compare. -/

namespace Sys2Proof.Machine

open Sys2Proof

variable {f : FpFmt}

/-! ### The fields of a code (R120) -/

/-- A code below 2^width is the signed magnitude of an exponent field E and a mantissa field m. -/
theorem FpFmt.exists_fields (f : FpFmt) {x : Nat} (hx : x < 2 ^ f.width) :
    ∃ neg E m, E < 2 ^ f.eb ∧ m < 2 ^ f.mb ∧ x = f.sign neg (E * 2 ^ f.mb + m) := by
  have hs : f.signBit = 2 ^ f.eb * 2 ^ f.mb := Nat.pow_add ..
  have hw : 2 ^ f.width = f.signBit + f.signBit := by
    rw [FpFmt.width, Nat.add_assoc, Nat.pow_add, ← FpFmt.signBit]
    omega
  have split_fields : ∀ y < f.signBit, y / 2 ^ f.mb < 2 ^ f.eb ∧ y = y / 2 ^ f.mb * 2 ^ f.mb + y % 2 ^ f.mb := fun y hy =>
    ⟨Nat.div_lt_of_lt_mul (by rwa [Nat.mul_comm, ← hs]), (Nat.div_add_mod' ..).symm⟩
  have hmod : ∀ y, y % 2 ^ f.mb < 2 ^ f.mb := fun y => Nat.mod_lt _ (Nat.two_pow_pos _)
  by_cases hlt : x < f.signBit
  · obtain ⟨hE, heq⟩ := split_fields x hlt
    exact ⟨false, _, _, hE, hmod x, heq⟩
  · obtain ⟨hE, heq⟩ := split_fields (x - f.signBit) (by omega)
    refine ⟨true, _, _, hE, hmod (x - f.signBit), ?_⟩
    rw [← heq, FpFmt.sign, if_pos rfl]
    omega

theorem FpFmt.sign_div_signBit (neg : Bool) {y : Nat} (hy : y < f.signBit) : (f.sign neg y / f.signBit % 2 == 1) = neg := by
  have hpos : 0 < f.signBit := Nat.two_pow_pos _
  cases neg with
  | false => simp [FpFmt.sign, Nat.div_eq_of_lt hy]
  | true => simp [FpFmt.sign, Nat.add_div_left _ hpos, Nat.div_eq_of_lt hy]

theorem FpFmt.sign_div_mod (neg : Bool) {E m : Nat} (hE : E < 2 ^ f.eb) (hm : m < 2 ^ f.mb) :
    f.sign neg (E * 2 ^ f.mb + m) / 2 ^ f.mb % 2 ^ f.eb = E := by
  have hdiv : ∀ k, (k * 2 ^ f.mb + m) / 2 ^ f.mb = k := fun k => by
    rw [Nat.add_comm, Nat.add_mul_div_right _ _ (Nat.two_pow_pos _), Nat.div_eq_of_lt hm, Nat.zero_add]
  cases neg with
  | false => simp [FpFmt.sign, hdiv, Nat.mod_eq_of_lt hE]
  | true => simp [FpFmt.sign, FpFmt.signBit, Nat.pow_add, ← Nat.add_assoc, ← Nat.add_mul, hdiv, Nat.mod_eq_of_lt hE]

theorem FpFmt.sign_mod (neg : Bool) (E : Nat) {m : Nat} (hm : m < 2 ^ f.mb) :
    f.sign neg (E * 2 ^ f.mb + m) % 2 ^ f.mb = m := by
  cases neg with
  | false => simp [FpFmt.sign, Nat.mod_eq_of_lt hm]
  | true => simp [FpFmt.sign, FpFmt.signBit, Nat.pow_add, ← Nat.add_assoc, ← Nat.add_mul, Nat.mod_eq_of_lt hm]

/-- The value of a code by its fields. -/
theorem Fp.decode_sign (neg : Bool) {E m : Nat} (hE : E < 2 ^ f.eb) (hm : m < 2 ^ f.mb) :
    Fp.decode f (f.sign neg (E * 2 ^ f.mb + m)) =
      if f.kind = .ieee ∧ E = 2 ^ f.eb - 1 then (if m = 0 then .inf neg else .nan)
      else if f.kind = .e4m3 ∧ E = 2 ^ f.eb - 1 ∧ m = 2 ^ f.mb - 1 then .nan
      else if E = 0 then .fin neg m f.emin
      else .fin neg (2 ^ f.mb + m) (f.emin + (E : Int) - 1) := by
  have hlt : E * 2 ^ f.mb + m < f.signBit := by
    have h : (E + 1) * 2 ^ f.mb ≤ 2 ^ f.eb * 2 ^ f.mb := Nat.mul_le_mul_right _ hE
    rw [FpFmt.signBit, Nat.pow_add]
    rw [Nat.add_mul] at h
    omega
  simp only [Fp.decode, FpFmt.sign_div_signBit neg hlt, FpFmt.sign_div_mod neg hE hm, FpFmt.sign_mod neg E hm]

theorem mul_add_le_of_lex {a e m e' m' : Nat} (hm : m < a) (h : e < e' ∨ e = e' ∧ m ≤ m') : e * a + m ≤ e' * a + m' := by
  obtain hlt | ⟨rfl, hle⟩ := h
  · have hmul : (e + 1) * a ≤ e' * a := Nat.mul_le_mul_right a hlt
    rw [Nat.add_mul] at hmul
    omega
  · exact Nat.add_le_add_left hle _

/-- The magnitude of a code that is neither an infinity nor a NaN is at most the largest finite value's. -/
theorem FpFmt.magnitude_le_maxBits {E m : Nat} (hE : E < 2 ^ f.eb) (hm : m < 2 ^ f.mb)
    (hieee : ¬ (f.kind = .ieee ∧ E = 2 ^ f.eb - 1)) (he4m3 : ¬ (f.kind = .e4m3 ∧ E = 2 ^ f.eb - 1 ∧ m = 2 ^ f.mb - 1)) :
    E * 2 ^ f.mb + m ≤ f.maxBits := by
  refine mul_add_le_of_lex hm ?_
  cases hk : f.kind with
  | ieee =>
    have htop : E ≠ 2 ^ f.eb - 1 := fun h => hieee ⟨hk, h⟩
    simp only [FpFmt.topExp, FpFmt.topMan, hk]
    omega
  | e4m3 =>
    have hlast : E = 2 ^ f.eb - 1 → m ≠ 2 ^ f.mb - 1 := fun he hl => he4m3 ⟨hk, he, hl⟩
    simp only [FpFmt.topExp, FpFmt.topMan, hk]
    omega
  | finite =>
    simp only [FpFmt.topExp, FpFmt.topMan, hk]
    omega

/-! ### Rounding (R124) -/

theorem natBits_le_of_lt {m k : Nat} (h : m < 2 ^ k) : natBits m ≤ k := by
  unfold natBits
  split
  · exact Nat.zero_le k
  · next h0 => exact (Nat.log2_lt h0).mpr h

theorem natBits_eq_of_normal {m k : Nat} (h : m < 2 ^ k) : natBits (2 ^ k + m) = k + 1 := by
  have h0 : 2 ^ k + m ≠ 0 := by have := Nat.two_pow_pos k; omega
  rw [natBits, if_neg h0, (Nat.log2_eq_iff h0).mpr ⟨Nat.le_add_right .., by rw [Nat.pow_succ]; omega⟩]

/-- A value whose exponent is already the quantum's is packed as it stands. -/
theorem Fp.roundParts_of_quantum (neg : Bool) {m : Nat} {e : Int} (h0 : m ≠ 0)
    (hq : max f.emin (e + (natBits m : Int) - ((f.mb : Int) + 1)) = e) (sticky : Bool) :
    Fp.roundParts f neg m e sticky = f.pack neg m e := by
  simp [Fp.roundParts, h0, hq]

/-- A subnormal, or a zero, rounds to its own code. -/
theorem Fp.round_subnormal (neg : Bool) {m : Nat} (hm : m < 2 ^ f.mb) (hmax : m ≤ f.maxBits) :
    Fp.round f (.fin neg m f.emin) = { bits := f.sign neg m, sat := false } := by
  rw [Fp.round]
  by_cases h0 : m = 0
  · simp [Fp.roundParts, h0]
  · have hbits := natBits_le_of_lt hm
    rw [Fp.roundParts_of_quantum neg h0 (by omega)]
    have hfits : ¬ m > f.maxBits := Nat.not_lt.mpr hmax
    simp only [FpFmt.pack, if_pos hm, if_neg hfits]

/-- A normal value rounds to its own code. -/
theorem Fp.round_normal (neg : Bool) {E m : Nat} (hE : E ≠ 0) (hm : m < 2 ^ f.mb) (hmax : E * 2 ^ f.mb + m ≤ f.maxBits) :
    Fp.round f (.fin neg (2 ^ f.mb + m) (f.emin + (E : Int) - 1)) = { bits := f.sign neg (E * 2 ^ f.mb + m), sat := false } := by
  have hbits := natBits_eq_of_normal hm
  have hexp : (f.emin + (E : Int) - 1 - f.emin).toNat + 1 = E := by omega
  have hn : 2 ^ f.mb + m ≠ 2 ^ (f.mb + 1) := by rw [Nat.pow_succ]; omega
  rw [Fp.round, Fp.roundParts_of_quantum neg (by omega) (by omega)]
  have hge : ¬ 2 ^ f.mb + m < 2 ^ f.mb := Nat.not_lt.mpr (Nat.le_add_right ..)
  have hfits : ¬ E * 2 ^ f.mb + m > f.maxBits := Nat.not_lt.mpr hmax
  simp only [FpFmt.pack, if_neg hge, if_neg hn, hexp, Nat.add_sub_cancel_left, if_neg hfits]

/-- Rounding a value that a format holds gives its code back. -/
theorem Fp.round_decode (f : FpFmt) {x : Nat} (hx : x < 2 ^ f.width) (hnan : (Fp.decode f x).isNan = false) :
    Fp.round f (Fp.decode f x) = { bits := x, sat := false } := by
  obtain ⟨neg, E, m, hE, hm, rfl⟩ := f.exists_fields hx
  rw [Fp.decode_sign neg hE hm] at hnan ⊢
  by_cases hieee : f.kind = .ieee ∧ E = 2 ^ f.eb - 1
  · rw [if_pos hieee] at hnan ⊢
    by_cases h0 : m = 0
    · simp [h0, Fp.round, hieee, FpFmt.infBits]
    · simp [h0, Fp.isNan] at hnan
  by_cases he4m3 : f.kind = .e4m3 ∧ E = 2 ^ f.eb - 1 ∧ m = 2 ^ f.mb - 1
  · simp [he4m3, Fp.isNan] at hnan
  have hmax := FpFmt.magnitude_le_maxBits hE hm hieee he4m3
  rw [if_neg hieee, if_neg he4m3]
  by_cases h0 : E = 0
  · subst h0
    rw [Nat.zero_mul, Nat.zero_add] at hmax ⊢
    exact Fp.round_subnormal neg hm hmax
  · rw [if_neg h0]
    exact Fp.round_normal neg h0 hm hmax

theorem FpFmt.sign_mod_signBit_le (neg : Bool) (y : Nat) : f.sign neg y % f.signBit ≤ y := by
  cases neg with
  | false => exact Nat.mod_le ..
  | true => rw [FpFmt.sign, if_pos rfl, Nat.add_mod_left]; exact Nat.mod_le ..

theorem FpFmt.pack_bits_le_maxBits (neg : Bool) (n : Nat) (q : Int) : (f.pack neg n q).bits % f.signBit ≤ f.maxBits := by
  unfold FpFmt.pack
  extract_lets body
  split
  · exact FpFmt.sign_mod_signBit_le ..
  · next h => exact Nat.le_trans (FpFmt.sign_mod_signBit_le ..) (Nat.not_lt.mp h)

/-- A finite value's rounding has a finite magnitude. -/
theorem Fp.round_fin_bits_le_maxBits (f : FpFmt) (neg : Bool) (m : Nat) (e : Int) :
    (Fp.round f (.fin neg m e)).bits % f.signBit ≤ f.maxBits := by
  rw [Fp.round, Fp.roundParts]
  split
  · exact Nat.le_trans (FpFmt.sign_mod_signBit_le ..) (Nat.zero_le _)
  · extract_lets q
    split <;> exact FpFmt.pack_bits_le_maxBits ..

/-! ### The order of values, and MIN and MAX (R126) -/

theorem Fp.lt_asymm {zeros : Bool} {a b : Fp} (h : Fp.lt zeros a b = true) : Fp.lt zeros b a = false := by
  cases a with
  | nan => cases b <;> rfl
  | inf na => cases b <;> simp_all [Fp.lt]
  | fin na ma ea =>
    cases b with
    | nan => rfl
    | inf nb => simp_all [Fp.lt]
    | fin nb mb eb =>
      simp only [Fp.lt, Int.min_comm eb ea] at h ⊢
      split at h
      · next h0 =>
        rw [if_pos h0.symm]
        simp only [Bool.and_eq_true, Bool.not_eq_true'] at h
        simp [h]
      · next h0 =>
        rw [if_neg fun h1 => h0 h1.symm]
        exact decide_eq_false (Int.lt_asymm (of_decide_eq_true h))

theorem Fp.lt_irrefl (zeros : Bool) (a : Fp) : Fp.lt zeros a a = false := by
  cases h : Fp.lt zeros a a with
  | false => rfl
  | true => exact h.symm.trans (Fp.lt_asymm h)

section

variable {isMax : Bool} {x y : Nat}

theorem FpFmt.minMax_of_nan_nan (hx : (Fp.decode f x).isNan = true) (hy : (Fp.decode f y).isNan = true) :
    f.minMax isMax x y = f.nanBits := by
  simp [FpFmt.minMax, hx, hy]

theorem FpFmt.minMax_of_nan_left (hx : (Fp.decode f x).isNan = true) (hy : (Fp.decode f y).isNan = false) :
    f.minMax isMax x y = y := by
  simp [FpFmt.minMax, hx, hy]

theorem FpFmt.minMax_of_nan_right (hx : (Fp.decode f x).isNan = false) (hy : (Fp.decode f y).isNan = true) :
    f.minMax isMax x y = x := by
  simp [FpFmt.minMax, hx, hy]

theorem FpFmt.minMax_true_of_no_nan (hx : (Fp.decode f x).isNan = false) (hy : (Fp.decode f y).isNan = false) :
    f.minMax true x y = if Fp.lt true (Fp.decode f x) (Fp.decode f y) then y else x := by
  simp [FpFmt.minMax, hx, hy]

theorem FpFmt.minMax_false_of_no_nan (hx : (Fp.decode f x).isNan = false) (hy : (Fp.decode f y).isNan = false) :
    f.minMax false x y = if Fp.lt true (Fp.decode f y) (Fp.decode f x) then y else x := by
  simp [FpFmt.minMax, hx, hy]

/-- No operand is above the maximum. -/
theorem FpFmt.max_not_lt (hx : (Fp.decode f x).isNan = false) (hy : (Fp.decode f y).isNan = false) :
    Fp.lt true (Fp.decode f (f.minMax true x y)) (Fp.decode f x) = false
    ∧ Fp.lt true (Fp.decode f (f.minMax true x y)) (Fp.decode f y) = false := by
  rw [FpFmt.minMax_true_of_no_nan hx hy]
  split
  · next h => exact ⟨Fp.lt_asymm h, Fp.lt_irrefl ..⟩
  · next h => exact ⟨Fp.lt_irrefl .., Bool.not_eq_true _ ▸ h⟩

/-- No operand is below the minimum. -/
theorem FpFmt.not_lt_min (hx : (Fp.decode f x).isNan = false) (hy : (Fp.decode f y).isNan = false) :
    Fp.lt true (Fp.decode f x) (Fp.decode f (f.minMax false x y)) = false
    ∧ Fp.lt true (Fp.decode f y) (Fp.decode f (f.minMax false x y)) = false := by
  rw [FpFmt.minMax_false_of_no_nan hx hy]
  split
  · next h => exact ⟨Fp.lt_asymm h, Fp.lt_irrefl ..⟩
  · next h => exact ⟨Fp.lt_irrefl .., Bool.not_eq_true _ ▸ h⟩

theorem FpFmt.minMax_eq_or_of_no_nan (hx : (Fp.decode f x).isNan = false) (hy : (Fp.decode f y).isNan = false) :
    f.minMax isMax x y = x ∨ f.minMax isMax x y = y := by
  cases isMax with
  | false =>
    rw [FpFmt.minMax_false_of_no_nan hx hy]
    split
    · exact .inr rfl
    · exact .inl rfl
  | true =>
    rw [FpFmt.minMax_true_of_no_nan hx hy]
    split
    · exact .inr rfl
    · exact .inl rfl

/-- MIN and MAX of codes of a width are a code of that width. -/
theorem FpFmt.minMax_lt {n : Nat} (hnan : f.nanBits < n) (hx : x < n) (hy : y < n) : f.minMax isMax x y < n := by
  cases ha : (Fp.decode f x).isNan <;> cases hb : (Fp.decode f y).isNan
  · obtain h | h := FpFmt.minMax_eq_or_of_no_nan (isMax := isMax) ha hb <;> rwa [h]
  · rwa [FpFmt.minMax_of_nan_right ha hb]
  · rwa [FpFmt.minMax_of_nan_left ha hb]
  · rwa [FpFmt.minMax_of_nan_nan ha hb]

end

/-- The codes of the two zeros. -/
theorem Fp.decode_zeros : ∀ f ∈ [fpF32, fpF64, fpBf16, fpF16],
    Fp.decode f 0 = .fin false 0 f.emin ∧ Fp.decode f f.signBit = .fin true 0 f.emin := by
  decide

/-- -0 is below +0 in the order of MIN and MAX, and +0 is not below -0. -/
theorem Fp.lt_zeros (e : Int) : Fp.lt true (.fin true 0 e) (.fin false 0 e) = true ∧ Fp.lt true (.fin false 0 e) (.fin true 0 e) = false := by
  simp [Fp.lt, signedAt]

theorem FpFmt.minMax_zeros (h0 : Fp.decode f 0 = .fin false 0 f.emin) (h1 : Fp.decode f f.signBit = .fin true 0 f.emin) :
    f.minMax false f.signBit 0 = f.signBit ∧ f.minMax false 0 f.signBit = f.signBit
    ∧ f.minMax true f.signBit 0 = 0 ∧ f.minMax true 0 f.signBit = 0 := by
  simp [FpFmt.minMax, h0, h1, Fp.isNan, Fp.lt_zeros]

/-! ### The vector and collective forms -/

theorem vMinMax_f32_toNat (isMax : Bool) (a b : W64) :
    (vMinMax .f32 isMax a b).val.toNat = fpF32.minMax isMax (a.toNat % 2 ^ 32) (b.toNat % 2 ^ 32) := by
  have hlt : fpF32.minMax isMax (a.toNat % 2 ^ 32) (b.toNat % 2 ^ 32) < 2 ^ 32 :=
    FpFmt.minMax_lt (by decide) (Nat.mod_lt _ (by decide)) (Nat.mod_lt _ (by decide))
  exact Nat.mod_eq_of_lt (Nat.lt_trans hlt (by decide))

theorem vMinMax_f64_toNat (isMax : Bool) (a b : W64) :
    (vMinMax .f64 isMax a b).val.toNat = fpF64.minMax isMax a.toNat b.toNat := by
  have hval : (vMinMax .f64 isMax a b).val.toNat = fpF64.minMax isMax (a.toNat % 2 ^ 64) (b.toNat % 2 ^ 64) % 2 ^ 64 := rfl
  rw [hval, Nat.mod_eq_of_lt a.isLt, Nat.mod_eq_of_lt b.isLt]
  exact Nat.mod_eq_of_lt (FpFmt.minMax_lt (by decide) a.isLt b.isLt)

/-- A half of two packed 16-bit elements. -/
theorem natBitsAt_pair {lo hi : Nat} (hlo : lo < 2 ^ 16) (hhi : hi < 2 ^ 16) :
    natBitsAt (BitVec.ofNat 64 (lo + 2 ^ 16 * hi)).toNat 0 16 = lo ∧ natBitsAt (BitVec.ofNat 64 (lo + 2 ^ 16 * hi)).toNat 16 16 = hi := by
  rw [BitVec.toNat_ofNat, natBitsAt, natBitsAt]
  omega

/-- MIN and MAX of an X2 type are those of its element format on each half. -/
theorem vMinMax_x2_natBitsAt (isMax : Bool) (a b : W64) : ∀ row ∈ [(VTy.f16x2, fpF16), (VTy.bf16x2, fpBf16)], ∀ i < 2,
    natBitsAt (vMinMax row.1 isMax a b).val.toNat (16 * i) 16
      = row.2.minMax isMax (natBitsAt a.toNat (16 * i) 16) (natBitsAt b.toNat (16 * i) 16) := by
  have hnan : ∀ row ∈ [(VTy.f16x2, fpF16), (VTy.bf16x2, fpBf16)], row.2.nanBits < 2 ^ 16 := by decide
  intro row hrow i hi
  have hval : (vMinMax row.1 isMax a b).val
      = BitVec.ofNat 64 (row.2.minMax isMax (natBitsAt a.toNat 0 16) (natBitsAt b.toNat 0 16)
          + 2 ^ 16 * row.2.minMax isMax (natBitsAt a.toNat 16 16) (natBitsAt b.toNat 16 16)) := by
    simp only [List.mem_cons, List.not_mem_nil, or_false] at hrow
    obtain rfl | rfl := hrow <;> simp [vMinMax, VTy.isInt, vFp, fpNoSat, natBitsAt]
  have hlt : ∀ j, row.2.minMax isMax (natBitsAt a.toNat j 16) (natBitsAt b.toNat j 16) < 2 ^ 16 := fun j =>
    FpFmt.minMax_lt (hnan row hrow) (natBitsAt_lt ..) (natBitsAt_lt ..)
  obtain ⟨hlo, hhi⟩ := natBitsAt_pair (hlt 0) (hlt 16)
  obtain rfl | rfl : i = 0 ∨ i = 1 := by omega
  · rw [hval]; exact hlo
  · rw [hval]; exact hhi

theorem collCombine_minMax (isMax : Bool) (ty : Nat) (f : FpFmt) (x y : Nat) (h : isIntType ty = false) :
    collCombine (if isMax then 3 else 2) ty f x y = f.minMax isMax x y := by
  cases isMax <;> simp [collCombine, h]

/-! ### ONLMAX and compares with a NaN operand -/

theorem onlmaxVal_of_nan {m x : Nat} (h : (Fp.decode fpF32 m).isNan = true ∨ (Fp.decode fpF32 x).isNan = true) :
    onlmaxVal m x = (fpF32.nanBits, fpF32.nanBits) :=
  if_pos (by simpa using h)

theorem Cmp.ofFp_of_nan (c : Cmp) {a b : Fp} (h : a.isNan = true ∨ b.isNan = true) : c.ofFp a b = decide (c = .ne) :=
  if_pos (by simpa using h)

end Sys2Proof.Machine

namespace Sys2Proof

open Machine

/-- Settles O5: codes by their fields, the order of MIN and MAX by its asymmetry, and the NaN cases by the definitions' first branches. -/
theorem floatingPointValues : Obligations.FloatingPointValues := by
  unfold Obligations.FloatingPointValues
  refine ⟨fun f _ => ⟨fun x hx hnan => Fp.round_decode f hx hnan, Fp.round_fin_bits_le_maxBits f⟩,
    fun f hf isMax x y => ⟨FpFmt.minMax_of_nan_nan, FpFmt.minMax_of_nan_left, FpFmt.minMax_of_nan_right, fun ha hb => ?_, ?_⟩,
    fun isMax a b => ⟨vMinMax_f32_toNat isMax a b, vMinMax_f64_toNat isMax a b, vMinMax_x2_natBitsAt isMax a b, collCombine_minMax isMax⟩,
    fun m x h => onlmaxVal_of_nan h, fun c a b => ⟨Cmp.ofFp_of_nan c, Cmp.ofFp_of_nan c⟩⟩
  · refine ⟨FpFmt.minMax_eq_or_of_no_nan ha hb, ?_⟩
    cases isMax with
    | false => exact FpFmt.not_lt_min ha hb
    | true => exact FpFmt.max_not_lt ha hb
  · obtain ⟨h0, h1⟩ := Fp.decode_zeros f hf
    exact FpFmt.minMax_zeros h0 h1

end Sys2Proof
end
